-- ==== Sys2Proof/Word.lean ====
section
/-! DEFINITION. The word types of the register bus and of the op word (spec/30_encoding.md rules R80, R81). -/

namespace Sys2Proof

/-- `u8`: a data byte of the register bus (`DATA_BITS` = 8, rule R4). -/
abbrev Byte := BitVec 8

/-- `u16`: a timer counter or latch (`TIMER_BITS` = 16, rule R4). -/
abbrev Word16 := BitVec 16

/-- The spec's own packing of one operation: class 15:12, sel 11:8, data 7:0 (rule R81). -/
abbrev OpWord := BitVec 16

/-- A register address (`ADDR_BITS` = 4, rules R4 and R60): an address above 0xF cannot be written down (rule R64). -/
abbrev RegAddr := BitVec 4

end Sys2Proof
end

