-- ==== Sys2Proof/Config.lean ====
section
/-! DEFINITION. The implementation parameters of spec/00_scope.md rule R4, as one record of plain data, and the
values the spec leaves open. A machine carries its record in its state (`State.cfg`), where no operation changes it, so a
claim about every state is a claim about every choice of the parameters (log entry 1). `TOD_INIT` is an argument of
`State.constructed`. The default values are in Machine/Params.lean. -/

namespace Sys2Proof

/-- `CHIP_ID`: `Cia1` drives the IRQ line, `Cia2` the NMI line (rules R4, R32). -/
inductive ChipId where
  | cia1
  | cia2
  deriving DecidableEq, Repr

/-- Timer B's pulse sources (rule R24). -/
inductive TimerBInput where
  | systemClock
  | external
  | timerA
  | timerAWithCnt
  deriving DecidableEq, Repr

/-- `CRB_INPUT_DECODE` (rules R4, R91): what each value of CRB bits 6 and 5 selects. `none` is a value that a substituted
decode rejects (rule R272). -/
structure CrbDecode where
  code00 : Option TimerBInput
  code01 : Option TimerBInput
  code10 : Option TimerBInput
  code11 : Option TimerBInput
  deriving DecidableEq, Repr

/-- `KBD_SCAN` (rules R4, R125): the documented function, or another one. A parameter that is a function is named by
plain data: `substituted n` stands for the n-th function of the uninterpreted family `substitutedScan` (log entry 8). -/
inductive KbdScan where
  | documented
  | substituted (n : Nat)
  deriving DecidableEq, Repr

/-- `JOY_BITS` (rules R4, R126): the mask bit of each joystick switch. -/
structure JoyBits where
  up    : Fin 8
  down  : Fin 8
  left  : Fin 8
  right : Fin 8
  fire  : Fin 8
  deriving DecidableEq, Repr

/-- What a time-of-day write does with a byte outside rule R85: rule R212 refuses it; spec/93_implementation_defined.md U7
allows a parameter `TOD_COERCE` from bytes to legal field values instead. A parameter that is a function is named by plain
data: `coerced n` stands for the n-th function of the uninterpreted family `coercedTod` (log entry 10). -/
inductive TodIllegal where
  | refused
  | coerced (n : Nat)
  deriving DecidableEq, Repr

/-- The parameters of rule R4 that the block's operations depend on. -/
structure Config where
  /-- `CHIP_ID`. -/
  chipId            : ChipId
  /-- `KBD_CHIP`: the chip in keyboard-scanning mode. -/
  kbdChip           : ChipId
  /-- `TIMER_RESET`. -/
  timerReset        : Word16
  /-- `PIN_CNT_DEFAULT`. -/
  pinCntDefault     : Bool
  /-- `PIN_FLAG_DEFAULT`. -/
  pinFlagDefault    : Bool
  /-- `PORT_EXTERNAL_RESET`. -/
  portExternalReset : Byte
  /-- `CRB_INPUT_DECODE`. -/
  crbInputDecode    : CrbDecode
  /-- `KBD_SCAN`. -/
  kbdScan           : KbdScan
  /-- `JOY_BITS`. -/
  joyBits           : JoyBits
  /-- `TOD_COERCE`, if there is one (93 U7). -/
  todIllegal        : TodIllegal
  deriving DecidableEq, Repr

/-- FREE VALUE (log entry 8). The keyboard-scan functions that may stand in for the documented one: of the n-th, applied to
the port A output value and the eight rows, nothing is known. -/
opaque substitutedScan (n : Nat) (c : Byte) (rows : Vector Byte 8) : Byte

/-- FREE VALUE (log entry 10). What the n-th `TOD_COERCE` makes of a byte written to the time-of-day register at an address,
before it is brought into the field's range. -/
opaque coercedTod (n : Nat) (a : RegAddr) (v : Byte) : Nat

/-- FREE VALUE (log entry 9). The two bits `R CRB` returns for timer B's input under a substituted decode that gives that
input no code, or more than one: rule R154 reads "the inverse", and there is none. -/
opaque freeCrbCode (d : CrbDecode) (i : TimerBInput) : BitVec 2

end Sys2Proof
end

