-- ==== Sys2Proof/Syntax.lean ====
section
/-! DEFINITION. The operations of the block (spec/00_scope.md rule R5, spec/30_encoding.md rules R81, R82, R99):
39 constructors, one for each row of spec/opcode_table.json. -/

namespace Sys2Proof

/-- The sixteen registers, in address order (rules R33, R82). -/
inductive Reg where
  | pra | prb | ddra | ddrb | talo | tahi | tblo | tbhi
  | tod10 | todsec | todmin | todhr | sdr | icr | cra | crb
  deriving DecidableEq, Repr

/-- The object of `PIN` (rule R110). -/
inductive PinSel where
  | cnt
  | flag
  deriving DecidableEq, Repr

/-- The object of `PORTIN` and of `JOY` (rules R114, R126). -/
inductive PortSel where
  | a
  | b
  deriving DecidableEq, Repr

/-- An operation. `r…` is the bus read `R a`, `w… v` the bus write `W a,v`. -/
inductive Instr where
  | rPra | rPrb | rDdra | rDdrb
  | rTalo | rTahi | rTblo | rTbhi
  | rTod10 | rTodsec | rTodmin | rTodhr
  | rSdr | rIcr | rCra | rCrb
  | wPra (v : Byte) | wPrb (v : Byte) | wDdra (v : Byte) | wDdrb (v : Byte)
  | wTalo (v : Byte) | wTahi (v : Byte) | wTblo (v : Byte) | wTbhi (v : Byte)
  | wTod10 (v : Byte) | wTodsec (v : Byte) | wTodmin (v : Byte) | wTodhr (v : Byte)
  | wSdr (v : Byte) | wIcr (v : Byte) | wCra (v : Byte) | wCrb (v : Byte)
  | clk | tod | rst
  | pin (p : PinSel) (l : Bool)
  | portin (p : PortSel) (v : Byte)
  /-- `i` is the whole `sel` field; rule R93 admits 0 to 7 (`Instr.wellFormed`). -/
  | key (i : BitVec 4) (m : Byte)
  | joy (p : PortSel) (m : Byte)
  deriving DecidableEq, Repr

/-- The row of spec/opcode_table.json, by its mnemonic. -/
def Instr.mnemonic : Instr → String
  | .rPra => "R_PRA" | .rPrb => "R_PRB" | .rDdra => "R_DDRA" | .rDdrb => "R_DDRB"
  | .rTalo => "R_TALO" | .rTahi => "R_TAHI" | .rTblo => "R_TBLO" | .rTbhi => "R_TBHI"
  | .rTod10 => "R_TOD10" | .rTodsec => "R_TODSEC" | .rTodmin => "R_TODMIN" | .rTodhr => "R_TODHR"
  | .rSdr => "R_SDR" | .rIcr => "R_ICR" | .rCra => "R_CRA" | .rCrb => "R_CRB"
  | .wPra _ => "W_PRA" | .wPrb _ => "W_PRB" | .wDdra _ => "W_DDRA" | .wDdrb _ => "W_DDRB"
  | .wTalo _ => "W_TALO" | .wTahi _ => "W_TAHI" | .wTblo _ => "W_TBLO" | .wTbhi _ => "W_TBHI"
  | .wTod10 _ => "W_TOD10" | .wTodsec _ => "W_TODSEC" | .wTodmin _ => "W_TODMIN" | .wTodhr _ => "W_TODHR"
  | .wSdr _ => "W_SDR" | .wIcr _ => "W_ICR" | .wCra _ => "W_CRA" | .wCrb _ => "W_CRB"
  | .clk => "CLK" | .tod => "TOD" | .rst => "RST"
  | .pin _ _ => "PIN" | .portin _ _ => "PORTIN" | .key _ _ => "KEY" | .joy _ _ => "JOY"

end Sys2Proof
end

