-- ==== Sys2Proof/WellFormed.lean ====
section
/-! DEFINITION. Which terms of `Instr` are operations (spec/30_encoding.md rule R93). The selectors of `PIN`, `PORTIN` and
`JOY` and every data byte are right by their types; the one check left is the matrix line of `KEY`. A write of a
time-of-day register with a byte outside rule R85 is well-formed (rule R93): its meaning refuses it. -/

namespace Sys2Proof

/-- The term is an operation: "a `KEY` word with `sel` above 7" is not (rule R93). -/
def Instr.wellFormed : Instr → Bool
  | .key i _ => decide (i.toNat ≤ 7)
  | .rPra | .rPrb | .rDdra | .rDdrb | .rTalo | .rTahi | .rTblo | .rTbhi => true
  | .rTod10 | .rTodsec | .rTodmin | .rTodhr | .rSdr | .rIcr | .rCra | .rCrb => true
  | .wPra _ | .wPrb _ | .wDdra _ | .wDdrb _ | .wTalo _ | .wTahi _ | .wTblo _ | .wTbhi _ => true
  | .wTod10 _ | .wTodsec _ | .wTodmin _ | .wTodhr _ | .wSdr _ | .wIcr _ | .wCra _ | .wCrb _ => true
  | .clk | .tod | .rst => true
  | .pin _ _ | .portin _ _ | .joy _ _ => true

end Sys2Proof
end

