-- ==== Sys2Proof/Decode.lean ====
section
/-! DEFINITION. The decoder of op words, total on all 65536 of them and rejecting by name (spec/30_encoding.md rules
R81, R82, R93, R99), the encoder, and the rows of spec/opcode_table.json. The packing is the spec's own (rule R81): an op word
is a number, with no byte order of its own. -/

namespace Sys2Proof

/-- Why a word is no operation (rule R93). -/
inductive DecodeError where
  /-- class 0x9 to 0xF -/
  | reservedClass
  /-- `CLK`, `TOD` or `RST` with `sel` or `data` not zero -/
  | ctlOperand
  /-- `PIN` with `sel` above 1 or `data` above 1 -/
  | pinOperand
  /-- `PORTIN` with `sel` above 1 -/
  | portSelector
  /-- `KEY` with `sel` above 7 -/
  | keyLine
  /-- `JOY` with `sel` above 1 -/
  | joySelector
  deriving DecidableEq, Repr

/-- `word[15:12]`. -/
def opClass (w : OpWord) : BitVec 4 := w.extractLsb' 12 4

/-- `word[11:8]`. -/
def opSel (w : OpWord) : BitVec 4 := w.extractLsb' 8 4

/-- `word[7:0]`. -/
def opData (w : OpWord) : Byte := w.extractLsb' 0 8

/-- The register at an address: the table of rule R82, exhaustive over 0x0 to 0xF (rule R240). -/
def Reg.ofAddr (a : RegAddr) : Reg :=
  match a with
  | 0x0 => .pra
  | 0x1 => .prb
  | 0x2 => .ddra
  | 0x3 => .ddrb
  | 0x4 => .talo
  | 0x5 => .tahi
  | 0x6 => .tblo
  | 0x7 => .tbhi
  | 0x8 => .tod10
  | 0x9 => .todsec
  | 0xA => .todmin
  | 0xB => .todhr
  | 0xC => .sdr
  | 0xD => .icr
  | 0xE => .cra
  | _ => .crb -- 0xF, the one address left

/-- The bus read of a register (class 0, rule R99). -/
def readInstr : Reg → Instr
  | .pra => .rPra | .prb => .rPrb | .ddra => .rDdra | .ddrb => .rDdrb
  | .talo => .rTalo | .tahi => .rTahi | .tblo => .rTblo | .tbhi => .rTbhi
  | .tod10 => .rTod10 | .todsec => .rTodsec | .todmin => .rTodmin | .todhr => .rTodhr
  | .sdr => .rSdr | .icr => .rIcr | .cra => .rCra | .crb => .rCrb

/-- The bus write of a byte to a register (class 1, rule R99). -/
def writeInstr (r : Reg) (v : Byte) : Instr :=
  match r with
  | .pra => .wPra v | .prb => .wPrb v | .ddra => .wDdra v | .ddrb => .wDdrb v
  | .talo => .wTalo v | .tahi => .wTahi v | .tblo => .wTblo v | .tbhi => .wTbhi v
  | .tod10 => .wTod10 v | .todsec => .wTodsec v | .todmin => .wTodmin v | .todhr => .wTodhr v
  | .sdr => .wSdr v | .icr => .wIcr v | .cra => .wCra v | .crb => .wCrb v

/-- Classes 2 to 4: `sel` and `data` must be zero (rule R81). -/
def decodeCtl (i : Instr) (sel : BitVec 4) (data : Byte) : Except DecodeError Instr :=
  if sel = 0 ∧ data = 0 then .ok i else .error .ctlOperand

/-- Class 5: `sel` 0 for CNT and 1 for FLAG, `data` bit 0 the level and its other bits zero. -/
def decodePin (sel : BitVec 4) (data : Byte) : Except DecodeError Instr :=
  if data = 0 ∨ data = 1 then
    if sel = 0 then .ok (.pin .cnt (data.getLsbD 0))
    else if sel = 1 then .ok (.pin .flag (data.getLsbD 0))
    else .error .pinOperand
  else .error .pinOperand

/-- Class 6: `sel` 0 for port A and 1 for port B. -/
def decodePortin (sel : BitVec 4) (data : Byte) : Except DecodeError Instr :=
  if sel = 0 then .ok (.portin .a data)
  else if sel = 1 then .ok (.portin .b data)
  else .error .portSelector

/-- Class 7: `sel` is the matrix line, 0 to 7. -/
def decodeKey (sel : BitVec 4) (data : Byte) : Except DecodeError Instr :=
  if sel.toNat ≤ 7 then .ok (.key sel data) else .error .keyLine

/-- Class 8: `sel` 0 for `joy_a` and 1 for `joy_b`. -/
def decodeJoy (sel : BitVec 4) (data : Byte) : Except DecodeError Instr :=
  if sel = 0 then .ok (.joy .a data)
  else if sel = 1 then .ok (.joy .b data)
  else .error .joySelector

/-- The decoder: class first, then `sel` and `data` (rule R99). The data field of a read is ignored (rule R81). -/
def decode (w : OpWord) : Except DecodeError Instr :=
  match opClass w with
  | 0x0 => .ok (readInstr (Reg.ofAddr (opSel w)))
  | 0x1 => .ok (writeInstr (Reg.ofAddr (opSel w)) (opData w))
  | 0x2 => decodeCtl .clk (opSel w) (opData w)
  | 0x3 => decodeCtl .tod (opSel w) (opData w)
  | 0x4 => decodeCtl .rst (opSel w) (opData w)
  | 0x5 => decodePin (opSel w) (opData w)
  | 0x6 => decodePortin (opSel w) (opData w)
  | 0x7 => decodeKey (opSel w) (opData w)
  | 0x8 => decodeJoy (opSel w) (opData w)
  | _ => .error .reservedClass

/-! ### The encoder -/

/-- The three fields as one word (rule R81). -/
def opWord (cls sel : BitVec 4) (data : Byte) : OpWord := cls ++ sel ++ data

/-- `sel` of `PIN`. -/
def PinSel.code : PinSel → BitVec 4
  | .cnt => 0
  | .flag => 1

/-- `sel` of `PORTIN` and `JOY`. -/
def PortSel.code : PortSel → BitVec 4
  | .a => 0
  | .b => 1

/-- The canonical word of an operation: the `canonical word` column of rule R81, with the addresses of rule R82. -/
def encode : Instr → OpWord
  | .rPra => opWord 0x0 0x0 0 | .rPrb => opWord 0x0 0x1 0
  | .rDdra => opWord 0x0 0x2 0 | .rDdrb => opWord 0x0 0x3 0
  | .rTalo => opWord 0x0 0x4 0 | .rTahi => opWord 0x0 0x5 0
  | .rTblo => opWord 0x0 0x6 0 | .rTbhi => opWord 0x0 0x7 0
  | .rTod10 => opWord 0x0 0x8 0 | .rTodsec => opWord 0x0 0x9 0
  | .rTodmin => opWord 0x0 0xA 0 | .rTodhr => opWord 0x0 0xB 0
  | .rSdr => opWord 0x0 0xC 0 | .rIcr => opWord 0x0 0xD 0
  | .rCra => opWord 0x0 0xE 0 | .rCrb => opWord 0x0 0xF 0
  | .wPra v => opWord 0x1 0x0 v | .wPrb v => opWord 0x1 0x1 v
  | .wDdra v => opWord 0x1 0x2 v | .wDdrb v => opWord 0x1 0x3 v
  | .wTalo v => opWord 0x1 0x4 v | .wTahi v => opWord 0x1 0x5 v
  | .wTblo v => opWord 0x1 0x6 v | .wTbhi v => opWord 0x1 0x7 v
  | .wTod10 v => opWord 0x1 0x8 v | .wTodsec v => opWord 0x1 0x9 v
  | .wTodmin v => opWord 0x1 0xA v | .wTodhr v => opWord 0x1 0xB v
  | .wSdr v => opWord 0x1 0xC v | .wIcr v => opWord 0x1 0xD v
  | .wCra v => opWord 0x1 0xE v | .wCrb v => opWord 0x1 0xF v
  | .clk => opWord 0x2 0 0
  | .tod => opWord 0x3 0 0
  | .rst => opWord 0x4 0 0
  | .pin p l => opWord 0x5 p.code (if l then 1 else 0)
  | .portin p v => opWord 0x6 p.code v
  | .key i m => opWord 0x7 i m
  | .joy p m => opWord 0x8 p.code m

/-! ### The opcode table -/

/-- One row of spec/opcode_table.json: a word is the row's when its bits under `mask` are `bits` ("match"). -/
structure OpcodeRow where
  mnemonic : String
  bits     : OpWord
  mask     : OpWord
  deriving DecidableEq, Repr

/-- The word is one of the row's. -/
def OpcodeRow.covers (r : OpcodeRow) (w : OpWord) : Bool := w &&& r.mask == r.bits

/-- Format BUSRD. -/
def busReadRows : List OpcodeRow :=
  [⟨"R_PRA", 0x0000, 0xFF00⟩, ⟨"R_PRB", 0x0100, 0xFF00⟩, ⟨"R_DDRA", 0x0200, 0xFF00⟩, ⟨"R_DDRB", 0x0300, 0xFF00⟩,
   ⟨"R_TALO", 0x0400, 0xFF00⟩, ⟨"R_TAHI", 0x0500, 0xFF00⟩, ⟨"R_TBLO", 0x0600, 0xFF00⟩, ⟨"R_TBHI", 0x0700, 0xFF00⟩,
   ⟨"R_TOD10", 0x0800, 0xFF00⟩, ⟨"R_TODSEC", 0x0900, 0xFF00⟩, ⟨"R_TODMIN", 0x0A00, 0xFF00⟩,
   ⟨"R_TODHR", 0x0B00, 0xFF00⟩, ⟨"R_SDR", 0x0C00, 0xFF00⟩, ⟨"R_ICR", 0x0D00, 0xFF00⟩, ⟨"R_CRA", 0x0E00, 0xFF00⟩,
   ⟨"R_CRB", 0x0F00, 0xFF00⟩]

/-- Format BUSWR. -/
def busWriteRows : List OpcodeRow :=
  [⟨"W_PRA", 0x1000, 0xFF00⟩, ⟨"W_PRB", 0x1100, 0xFF00⟩, ⟨"W_DDRA", 0x1200, 0xFF00⟩, ⟨"W_DDRB", 0x1300, 0xFF00⟩,
   ⟨"W_TALO", 0x1400, 0xFF00⟩, ⟨"W_TAHI", 0x1500, 0xFF00⟩, ⟨"W_TBLO", 0x1600, 0xFF00⟩, ⟨"W_TBHI", 0x1700, 0xFF00⟩,
   ⟨"W_TOD10", 0x1800, 0xFF00⟩, ⟨"W_TODSEC", 0x1900, 0xFF00⟩, ⟨"W_TODMIN", 0x1A00, 0xFF00⟩,
   ⟨"W_TODHR", 0x1B00, 0xFF00⟩, ⟨"W_SDR", 0x1C00, 0xFF00⟩, ⟨"W_ICR", 0x1D00, 0xFF00⟩, ⟨"W_CRA", 0x1E00, 0xFF00⟩,
   ⟨"W_CRB", 0x1F00, 0xFF00⟩]

/-- Formats CTL and ENV. -/
def ctlEnvRows : List OpcodeRow :=
  [⟨"CLK", 0x2000, 0xFFFF⟩, ⟨"TOD", 0x3000, 0xFFFF⟩, ⟨"RST", 0x4000, 0xFFFF⟩,
   ⟨"PIN", 0x5000, 0xFEFE⟩, ⟨"PORTIN", 0x6000, 0xFE00⟩, ⟨"KEY", 0x7000, 0xF800⟩, ⟨"JOY", 0x8000, 0xFE00⟩]

/-- The 39 rows. -/
def opcodeRows : List OpcodeRow := busReadRows ++ busWriteRows ++ ctlEnvRows

/-! ### The host's entry point -/

/-- The instruction the decoder reads from a row's word `w` of `nbits` bits: every bit above `nbits` is zero, and an op word
is 16 bits, one word (rule R96). -/
def decodeTableWord (nbits w : Nat) : Option Instr := (decode (BitVec.ofNat 16 (w % 2 ^ nbits))).toOption

end Sys2Proof
end

