-- ==== Sys2Proof/Machine/Components.lean ====
section
/-! DEFINITION. The component records of spec/10_state.md rules R21 to R32, as plain data. -/

namespace Sys2Proof.Machine

/-- A pin: its level and the level before the last update (rule R21). -/
structure Pin where
  level     : Bool
  prevLevel : Bool
  deriving DecidableEq, Repr

/-- An I/O port (rule R22): driven output bits, direction (1 = output), forced input bits. -/
structure Port where
  value     : Byte
  direction : Byte
  external  : Byte
  deriving DecidableEq, Repr

/-- A timer's run mode (rule R23). -/
inductive RunMode where
  | oneShot
  | continuous
  deriving DecidableEq, Repr

/-- A timer's output mode (rule R23); it has no effect on counting (rule R157). -/
inductive OutputMode where
  | pulse
  | toggle
  deriving DecidableEq, Repr

/-- Timer A's pulse sources. Two values, so that a chained source cannot be written down for timer A (rule R24). -/
inductive TimerAInput where
  | systemClock
  | external
  deriving DecidableEq, Repr

/-- A timer (rule R23); `ι` is the domain of its input selector (rule R24). -/
structure Timer (ι : Type) where
  value         : Word16
  latch         : Word16
  enabled       : Bool
  mode          : RunMode
  input         : ι
  output        : OutputMode
  outputEnabled : Bool
  deriving DecidableEq, Repr

/-- The interrupt control register (rule R25). `IR()` and `Data()` are derived, not stored (rule R26). -/
structure Icr where
  event : Byte
  mask  : Byte
  deriving DecidableEq, Repr

/-- The events that operations record (rules R180, R188, R275). -/
inductive Event where
  | timerA
  | timerB
  | alarm
  | flag
  deriving DecidableEq, Repr

/-- The running time-of-day clock, in decimal numbers (rule R27); `enabled` is the freeze latch. -/
structure Clock where
  tenths  : Nat
  seconds : Nat
  minutes : Nat
  hours   : Nat
  pm      : Bool
  enabled : Bool
  deriving DecidableEq, Repr

/-- The alarm (rule R28): the clock's record without the freeze latch. -/
structure Alarm where
  tenths  : Nat
  seconds : Nat
  minutes : Nat
  hours   : Nat
  pm      : Bool
  deriving DecidableEq, Repr

/-- `TOD_INIT` (rule R4): the clock and the alarm of a newly constructed chip. -/
structure TodInit where
  clock : Clock
  alarm : Alarm
  deriving DecidableEq, Repr

/-- Who may assert an interrupt line: a chip under its `CHIP_ID`, or another source of the platform (rule R32). -/
inductive Source where
  | chip (id : ChipId)
  | other (n : Nat)
  deriving DecidableEq, Repr

/-- A line: the set of the sources asserting it (rule R32), as a list in rising order of `Source.key` (`Line.Sorted`). -/
structure Line where
  sources : List Source
  deriving DecidableEq, Repr

/-- The joystick's switches, true = closed (rule R126). -/
structure Switches where
  up    : Bool
  down  : Bool
  left  : Bool
  right : Bool
  fire  : Bool
  deriving DecidableEq, Repr

end Sys2Proof.Machine
end

