-- ==== Sys2Proof/Machine/Params.lean ====
section
/-! DEFINITION. The parameter values of spec/00_scope.md rule R4, and what each component holds after reset
(spec/70_reset_and_hazards.md rules R301 to R305). -/

namespace Sys2Proof.Machine

/-- The default `CRB_INPUT_DECODE` (rule R91): 00 system clock, 01 CNT, 10 timer A, 11 timer A gated by CNT. -/
def crbDecodeStandard : CrbDecode :=
  { code00 := some .systemClock, code01 := some .external, code10 := some .timerA, code11 := some .timerAWithCnt }

/-- The default `JOY_BITS` (rule R126): bit 0 up, 1 down, 2 left, 3 right, 4 fire. -/
def joyBitsStandard : JoyBits := { up := 0, down := 1, left := 2, right := 3, fire := 4 }

/-- The defaults of rule R4. `CHIP_ID` is an argument there and the two pin defaults are OPEN.
DESIGN CHOICE (log entry 1): `Cia1`, and both pins high, the value rule R305 prefers if one must be fixed. -/
def configStandard : Config :=
  { chipId := .cia1
    kbdChip := .cia1
    timerReset := 0xFFFF
    pinCntDefault := true
    pinFlagDefault := true
    portExternalReset := 0xFF
    crbInputDecode := crbDecodeStandard
    kbdScan := .documented
    joyBits := joyBitsStandard
    todIllegal := .refused }

/-- `TOD_INIT` is OPEN in rule R4. DESIGN CHOICE (log entry 2): zero, or the least legal value where zero is not legal. -/
def todInitStandard : TodInit :=
  { clock := { tenths := 0, seconds := 0, minutes := 0, hours := 1, pm := false, enabled := false }
    alarm := { tenths := 0, seconds := 0, minutes := 0, hours := 1, pm := false } }

/-- A pin at its default level, with no edge pending (rule R305). -/
def pinAtReset (level : Bool) : Pin := { level := level, prevLevel := level }

/-- A port after reset (rule R301). -/
def portAtReset (cfg : Config) : Port := { value := 0x00, direction := 0x00, external := cfg.portExternalReset }

/-- A timer after reset (rule R302); `clock` is the system-clock value of its input selector. -/
def timerAtReset {ι : Type} (cfg : Config) (clock : ι) : Timer ι :=
  { value := cfg.timerReset, latch := cfg.timerReset, enabled := false, mode := .continuous,
    input := clock, output := .pulse, outputEnabled := false }

/-- The ICR after reset (rule R303). -/
def icrAtReset : Icr := { event := 0x00, mask := 0x00 }

/-- All keys released: the initial key state (rule R31). -/
def keysReleased : Vector Byte 8 := Vector.replicate 8 0x00

/-- All switches open: the initial joystick masks (rule R31). -/
def switchesOpen : Byte := 0xFF

/-- No source asserts the line. DESIGN CHOICE (log entry 5) for the sources other than this chip. -/
def lineReleased : Line := { sources := [] }

end Sys2Proof.Machine
end

