-- ==== Sys2Proof/Machine/State.lean ====
section
/-! DEFINITION. The machine's state: every field of spec/10_state.md rule R20, the environment inputs of rule R31, the
interrupt lines of rule R32, the parameters of spec/00_scope.md rule R4, and two fields of the model's own, `result` and
`pending`. The reasons a step can stop, and the state after reset. -/

namespace Sys2Proof.Machine

/-- The state of one chip and of what it is connected to. -/
structure State where
  /-- The implementation parameters (rule R4); no operation changes them. -/
  cfg          : Config
  /-- CNT (rule R21). -/
  cnt          : Pin
  /-- FLAG (rule R21). -/
  flag         : Pin
  /-- Port A (rule R22). -/
  pa           : Port
  /-- Port B (rule R22). -/
  pb           : Port
  /-- Timer A (rule R23). -/
  ta           : Timer TimerAInput
  /-- Timer B (rule R23). -/
  tb           : Timer TimerBInput
  /-- The interrupt control register (rule R25). -/
  icr          : Icr
  /-- The running clock (rule R27). -/
  clock        : Clock
  /-- The alarm (rule R28). -/
  alarm        : Alarm
  /-- Which of the two a time-of-day write reaches: true = alarm (rule R29). -/
  todSetAlarm  : Bool
  /-- The level of the chip's interrupt output (rule R30). -/
  intTriggered : Bool
  /-- The pressed keys of each matrix line, an environment input (rule R31). -/
  keyrow       : Vector Byte 8
  /-- Active-low mask ANDed into port A reads, an environment input (rule R31). -/
  joyA         : Byte
  /-- Active-low mask ANDed into port B reads, an environment input (rule R31). -/
  joyB         : Byte
  /-- The processor's IRQ line, driven by `Cia1` (rule R32). -/
  irq          : Line
  /-- The processor's NMI line, driven by `Cia2` (rule R32). -/
  nmi          : Line
  /-- The model's own (log entry 4): the byte that the operation of the last step returned to the bus master. -/
  result       : Option Byte
  /-- The model's own (log entry 3): the op words that the driver has still to issue, the next one first. -/
  pending      : List OpWord
  deriving DecidableEq, Repr

/-- The fatal outcomes of rule R270. -/
inductive Fault where
  /-- Raised by `W CRB` when a substituted `CRB_INPUT_DECODE` rejects the selector (rules R152, R272). Safe: the spec
  calls the operation fatal. -/
  | malformedInputSelector
  /-- Raised by nothing: `TimerAInput` has no chained value (rules R24, R272). The spec keeps the name. Safe. -/
  | unreachableInputSource
  /-- Raised by nothing: a register address has four bits (rules R64, R271). The spec keeps the name. Safe. -/
  | addressOutOfRange
  deriving DecidableEq, Repr

/-- Why an operation is given no meaning. -/
inductive Refusal where
  /-- Raised by an arm of `exec` whose instruction has no meaning yet. Safe. -/
  | notModelled (mnemonic : String)
  /-- Raised by `W TOD10`, `W TODSEC`, `W TODMIN`, `W TODHR` for a byte outside rule R85 (rules R212, R273), if the
  parameters have no `TOD_COERCE`. Safe: the spec gives the write no meaning, and nothing is claimed of it (log entry 10). -/
  | todIllegalValue
  /-- Raised by nothing: the driver issues one operation at a time (rules R70, R274). The spec keeps the name. Safe. -/
  | concurrentMutation
  /-- Raised by `step` for a word that is no operation (rule R93), and by `KEY` for an ill-formed term. Safe: the spec
  calls a program with such a word ill-formed (log entry 7). -/
  | notAnOperation (why : DecodeError)
  deriving DecidableEq, Repr

/-- A chip that has been constructed and has received no operation (rule R310): the state `RST` establishes, with the
clock and the alarm of `TOD_INIT`, and the environment as rule R31 starts it. -/
def State.constructed (cfg : Config) (tod : TodInit) : State :=
  { cfg := cfg
    cnt := pinAtReset cfg.pinCntDefault
    flag := pinAtReset cfg.pinFlagDefault
    pa := portAtReset cfg
    pb := portAtReset cfg
    ta := timerAtReset cfg .systemClock
    tb := timerAtReset cfg .systemClock
    icr := icrAtReset
    clock := tod.clock
    alarm := tod.alarm
    todSetAlarm := false
    intTriggered := false
    keyrow := keysReleased
    joyA := switchesOpen
    joyB := switchesOpen
    irq := lineReleased
    nmi := lineReleased
    result := none
    pending := [] }

/-- The machine right after reset: construction (rules R40, R310) under the parameters of Machine/Params.lean. The driver
has issued nothing yet and has nothing to issue (log entry 3). -/
def State.reset : State := State.constructed configStandard todInitStandard

end Sys2Proof.Machine
end

