-- ==== Sys2Proof/Machine/Operands.lean ====
section
/-! DEFINITION. The operand forms: register layouts of spec/30_encoding.md rules R83 to R91, BCD (rule R86), the bytes of
a timer value (rules R62, R95), what a port read presents (spec/40_pin_port.md rules R115, R125, R126). -/

namespace Sys2Proof.Machine

/-- The byte with `b` at bit `n` and zeros elsewhere. -/
def bitAt (b : Bool) (n : Nat) : Byte := if b then BitVec.twoPow 8 n else 0

/-! ### The bytes of a 16-bit value (rules R62, R84, R95) -/

/-- `x[7:0]`. -/
def loByte (x : Word16) : Byte := x.extractLsb' 0 8

/-- `x[15:8]`. -/
def hiByte (x : Word16) : Byte := x.extractLsb' 8 8

/-- `{h, l}`. -/
def ofBytes (h l : Byte) : Word16 := h ++ l

/-! ### BCD (rule R86) -/

/-- `ToBcd(n) = 16 * (n / 10) + (n % 10)`, as a `u8`. -/
def toBcd (n : Nat) : Byte := BitVec.ofNat 8 (16 * (n / 10) + n % 10)

/-- `IsBcd(b)`: both nibbles are decimal digits. -/
def isBcd (b : Byte) : Bool := decide (b.toNat / 16 ≤ 9) && decide (b.toNat % 16 ≤ 9)

/-- `FromBcd(b) = 10 * b[7:4] + b[3:0]`, meant for a BCD byte. -/
def fromBcd (b : Byte) : Nat := 10 * (b.toNat / 16) + b.toNat % 16

/-! ### Legal data of a time-of-day write (rule R212) -/

/-- The low seven bits of a TODHR byte: the hour (rule R85). -/
def hourBits (v : Byte) : Byte := v &&& 0x7F

/-- TOD10 accepts 0x00 to 0x09. -/
def tenthsLegal (v : Byte) : Bool := decide (v.toNat ≤ 9)

/-- TODSEC and TODMIN accept the BCD bytes of 0 to 59. -/
def sixtyLegal (v : Byte) : Bool := isBcd v && decide (fromBcd v ≤ 59)

/-- TODHR accepts a byte whose low seven bits are the BCD of 1 to 12. -/
def hoursLegal (v : Byte) : Bool :=
  isBcd (hourBits v) && decide (1 ≤ fromBcd (hourBits v)) && decide (fromBcd (hourBits v) ≤ 12)

/-- The field value of a time-of-day write: the BCD number of a legal byte. An illegal one has no value (rule R212), or
under a `TOD_COERCE` (93 U7) an unknown one among `least`, `least + 1`, …, `span` of them (log entry 10). -/
def todValue (k : TodIllegal) (legal : Bool) (bcd : Byte) (a : RegAddr) (v : Byte) (least span : Nat) : Option Nat :=
  if legal then some (fromBcd bcd)
  else
    match k with
    | .refused => none
    | .coerced n => some (least + coercedTod n a v % span)

/-- The tenths that `W TOD10,v` writes. -/
def tenthsValue (k : TodIllegal) (v : Byte) : Option Nat := todValue k (tenthsLegal v) v 0x8 v 0 10

/-- The seconds that `W TODSEC,v` writes. -/
def secondsValue (k : TodIllegal) (v : Byte) : Option Nat := todValue k (sixtyLegal v) v 0x9 v 0 60

/-- The minutes that `W TODMIN,v` writes. -/
def minutesValue (k : TodIllegal) (v : Byte) : Option Nat := todValue k (sixtyLegal v) v 0xA v 0 60

/-- The hours that `W TODHR,v` writes. -/
def hoursValue (k : TodIllegal) (v : Byte) : Option Nat := todValue k (hoursLegal v) (hourBits v) 0xB v 1 12

/-! ### Control registers (rules R89 to R91) -/

/-- Bit 2, OUTMODE. -/
def outputOfBit (b : Bool) : OutputMode := if b then .toggle else .pulse

/-- Bit 3, RUNMODE. -/
def modeOfBit (b : Bool) : RunMode := if b then .oneShot else .continuous

/-- CRA bit 5, INMODE. -/
def inputAOfBit (b : Bool) : TimerAInput := if b then .external else .systemClock

/-- `CRB_INPUT_DECODE` applied to CRB bits 6 and 5. -/
def crbDecode (d : CrbDecode) (code : BitVec 2) : Option TimerBInput :=
  match code with
  | 0 => d.code00
  | 1 => d.code01
  | 2 => d.code10
  | _ => d.code11

/-- CRB bits 6 and 5 of a written byte. -/
def crbSelector (v : Byte) : BitVec 2 := v.extractLsb' 5 2

/-- The inverse of `CRB_INPUT_DECODE` (rule R154): the code of an input that has exactly one. Where a substituted decode
gives the input none or several, the two bits are a free value (log entry 9). -/
def crbCode (d : CrbDecode) (i : TimerBInput) : BitVec 2 :=
  match [(0 : BitVec 2), 1, 2, 3].filter fun c => crbDecode d c == some i with
  | [c] => c
  | _ => freeCrbCode d i

/-- Bits 0 to 3 of a control register as read; bit 4 reads 0 (rules R153, R154). -/
def ctlStatus {ι : Type} (t : Timer ι) : Byte :=
  bitAt t.enabled 0 ||| bitAt t.outputEnabled 1 ||| bitAt (t.output == .toggle) 2 ||| bitAt (t.mode == .oneShot) 3

/-- CRA as read (rule R153). -/
def craByte (t : Timer TimerAInput) : Byte := ctlStatus t ||| bitAt (t.input == .external) 5

/-- CRB as read (rule R154). -/
def crbByte (d : CrbDecode) (t : Timer TimerBInput) (setAlarm : Bool) : Byte :=
  ctlStatus t ||| bitAt ((crbCode d t.input).getLsbD 0) 5 ||| bitAt ((crbCode d t.input).getLsbD 1) 6
    ||| bitAt setAlarm 7

/-! ### Ports (rules R115, R120, R121, R125, R126) -/

/-- `Effective(p)`. -/
def effective (p : Port) : Byte := (p.value &&& p.direction) ||| (p.external &&& ~~~p.direction)

/-- The OR of the rows whose line is selected by a zero bit of `c`. -/
def pressedMask (c : Byte) (rows : Vector Byte 8) : Byte :=
  (List.finRange 8).foldl (fun acc (i : Fin 8) => if c.getLsbD i then acc else acc ||| rows[i]) 0

/-- The documented `KBD_SCAN` (rule R125), with its two shortcuts. -/
def documentedScan (c : Byte) (rows : Vector Byte 8) : Byte :=
  if c = 0x00 then 0x00 else if c = 0xFF then 0xFF else ~~~pressedMask c rows

/-- `KBD_SCAN` as the parameter has it. -/
def kbdScan (k : KbdScan) (c : Byte) (rows : Vector Byte 8) : Byte :=
  match k with
  | .documented => documentedScan c rows
  | .substituted n => substitutedScan n c rows

/-- The byte `R PRA` returns (rule R120). -/
def praByte (s : State) : Byte :=
  if s.cfg.chipId = s.cfg.kbdChip then effective s.pa &&& s.joyA else effective s.pa

/-- The byte `R PRB` returns (rule R121): the scan is of the stored port A byte, not of its effective value. -/
def prbByte (s : State) : Byte :=
  if s.cfg.chipId = s.cfg.kbdChip then effective s.pb &&& kbdScan s.cfg.kbdScan s.pa.value s.keyrow &&& s.joyB
  else effective s.pb

/-- The active-low mask that the joystick's switches make under `JOY_BITS` (rule R126): a closed switch gives 0, an open
one and a bit with no switch give 1. It is the environment's part of `JOY p,m`. -/
def joyMask (b : JoyBits) (w : Switches) : Byte :=
  ~~~(bitAt w.up b.up ||| bitAt w.down b.down ||| bitAt w.left b.left ||| bitAt w.right b.right ||| bitAt w.fire b.fire)

end Sys2Proof.Machine
end

