-- ==== Sys2Proof/Machine/Flags.lean ====
section
/-! DEFINITION. The flags of the block: the sticky events, the mask, the request and the data byte of the ICR
(spec/42_icr.md rules R180 to R184), and the pin queries (spec/40_pin_port.md rule R111). There are no arithmetic condition
codes (spec/10_state.md rule R35). -/

namespace Sys2Proof.Machine

/-- An event's bit number, its cause code (rules R188, R275). -/
def Event.bit : Event → Nat
  | .timerA => 0
  | .timerB => 1
  | .alarm => 2
  | .flag => 4

/-- `SetEvent(i)` (rule R180). -/
def Icr.setEvent (r : Icr) (e : Event) : Icr := { r with event := r.event ||| BitVec.twoPow 8 e.bit }

/-- `if b then SetEvent(i)`, as `CLK` records its events (rule R241). -/
def Icr.recordIf (r : Icr) (b : Bool) (e : Event) : Icr := if b then r.setEvent e else r

/-- `UpdateMask(v)` (rule R181): bit 7 says set or clear, the low seven bits say which. -/
def Icr.updateMask (r : Icr) (v : Byte) : Icr :=
  { r with mask := if v.getLsbD 7 then r.mask ||| (v &&& 0x7F) else r.mask &&& ~~~(v &&& 0x7F) }

/-- `IR()` (rule R182). -/
def Icr.ir (r : Icr) : Bool := r.event &&& r.mask != 0

/-- `Data()` (rule R183). -/
def Icr.data (r : Icr) : Byte := (r.event &&& 0x1F) ||| (if r.ir then 0x80 else 0x00)

/-- `ClearEvents()` (rule R184). -/
def Icr.clearEvents (r : Icr) : Icr := { r with event := 0x00 }

/-- `IsHigh(pin)`. -/
def Pin.isHigh (p : Pin) : Bool := p.level

/-- `IsLow(pin)`. -/
def Pin.isLow (p : Pin) : Bool := !p.level

/-- `IsRising(pin)`. -/
def Pin.isRising (p : Pin) : Bool := !p.prevLevel && p.level

/-- `IsFalling(pin)`. -/
def Pin.isFalling (p : Pin) : Bool := p.prevLevel && !p.level

end Sys2Proof.Machine
end

