-- ==== Sys2Proof/Machine/Ops.lean ====
section
/-! DEFINITION. The operations that the meanings share: the interrupt line, its assertion (what the block does on "trap
entry", spec/60_exceptions.md rule R280) and its acknowledgement (its "return", rule R281), pins, timers, the clock, reset,
and taking the driver's next operation. -/

namespace Sys2Proof.Machine

/-- The outcome type of every meaning. -/
abbrev Out := Host.Outcome State Fault Refusal

/-- A bus read answers the byte `b`. -/
def State.returning (s : State) (b : Byte) : State := { s with result := some b }

/-! ### The interrupt line (rules R32, R278) -/

/-- The place of a source in the list that stands for the set. -/
def Source.key : Source → Nat
  | .chip .cia1 => 0
  | .chip .cia2 => 1
  | .other n => n + 2

/-- Adding to the set, in rising order and without repeats. -/
def insertSource (x : Source) : List Source → List Source
  | [] => [x]
  | y :: ys =>
    if x.key < y.key then x :: y :: ys
    else if x = y then y :: ys
    else y :: insertSource x ys

/-- `Line.assert(id)`. -/
def Line.assert (l : Line) (id : ChipId) : Line := { sources := insertSource (.chip id) l.sources }

/-- `Line.clear(id)`. -/
def Line.clear (l : Line) (id : ChipId) : Line := { sources := l.sources.filter fun x => x != .chip id }

/-- A line is active when its set is not empty. -/
def Line.active (l : Line) : Bool := !l.sources.isEmpty

/-- The list stands for a set: strictly rising keys. -/
abbrev Line.Sorted (l : Line) : Prop := l.sources.Pairwise fun x y => x.key < y.key

/-- The line this chip drives: IRQ for `Cia1`, NMI for `Cia2` (rules R32, R250). -/
def State.line (s : State) : Line :=
  match s.cfg.chipId with
  | .cia1 => s.irq
  | .cia2 => s.nmi

/-- `Line.assert(CHIP_ID)` on the chip's line. -/
def State.lineAssert (s : State) : State :=
  match s.cfg.chipId with
  | .cia1 => { s with irq := s.irq.assert .cia1 }
  | .cia2 => { s with nmi := s.nmi.assert .cia2 }

/-- `Line.clear(CHIP_ID)` on the chip's line. -/
def State.lineClear (s : State) : State :=
  match s.cfg.chipId with
  | .cia1 => { s with irq := s.irq.clear .cia1 }
  | .cia2 => { s with nmi := s.nmi.clear .cia2 }

/-- `IrqCheck()` (rule R187): assert the line if a request is pending and the output is not already asserted. -/
def State.irqCheck (s : State) : State :=
  if s.icr.ir && !s.intTriggered then { s.lineAssert with intTriggered := true } else s

/-- The acknowledgement inside `R ICR` (rule R185): the events, the line and the output are cleared together. -/
def State.acknowledge (s : State) : State := { s.lineClear with icr := s.icr.clearEvents, intTriggered := false }

/-! ### Pins (rule R110) -/

/-- `set(level)`: the old level becomes the previous one first. -/
def Pin.set (p : Pin) (l : Bool) : Pin := { level := l, prevLevel := p.level }

/-! ### Timers (rules R140 to R156) -/

/-- `Update(t, pulse)` (rule R140): the timer after one pulse, and whether it underflowed. -/
def Timer.update {ι : Type} (t : Timer ι) (pulse : Bool) : Timer ι × Bool :=
  if t.enabled && pulse then
    if t.value = 0 then ({ t with value := t.latch }, true)
    else ({ t with value := t.value - 1 }, false)
  else (t, false)

/-- The one-shot stop (rule R142), with the underflow flag of the update before it. -/
def Timer.stopIfOneShot {ι : Type} (t : Timer ι) (underflow : Bool) : Timer ι :=
  if underflow && t.mode == .oneShot then { t with enabled := false } else t

/-- `value <- latch` (rule R141). -/
def Timer.reload {ι : Type} (t : Timer ι) : Timer ι := { t with value := t.latch }

/-- The reload of a stopped timer after a latch write (rules R143 to R146). -/
def Timer.reloadIfStopped {ι : Type} (t : Timer ι) : Timer ι := if t.enabled then t else t.reload

/-- A write of the latch's low byte (rules R143, R145). -/
def Timer.writeLo {ι : Type} (t : Timer ι) (v : Byte) : Timer ι :=
  ({ t with latch := ofBytes (hiByte t.latch) v } : Timer ι).reloadIfStopped

/-- A write of the latch's high byte (rules R144, R146). -/
def Timer.writeHi {ι : Type} (t : Timer ι) (v : Byte) : Timer ι :=
  ({ t with latch := ofBytes v (loByte t.latch) } : Timer ι).reloadIfStopped

/-- A control-register write (rules R151, R152): bits 0 to 4 of `v`, and the input that the caller decoded. -/
def Timer.configure {ι : Type} (t : Timer ι) (v : Byte) (input : ι) : Timer ι :=
  { t with
    enabled := v.getLsbD 0
    outputEnabled := v.getLsbD 1
    output := outputOfBit (v.getLsbD 2)
    mode := modeOfBit (v.getLsbD 3)
    value := if v.getLsbD 4 then t.latch else t.value
    input := input }

/-- `PulseA()` (rule R155). -/
def pulseA (s : State) : Bool :=
  match s.ta.input with
  | .systemClock => true
  | .external => s.cnt.isRising

/-- `PulseB(ua)` (rule R156). -/
def pulseB (s : State) (ua : Bool) : Bool :=
  match s.tb.input with
  | .systemClock => true
  | .external => s.cnt.isRising
  | .timerA => ua
  | .timerAWithCnt => ua && s.cnt.isHigh

/-- Timer A's underflow flag in a `CLK` from this state (rule R241). -/
def underflowA (s : State) : Bool := (s.ta.update (pulseA s)).2

/-- Timer B's underflow flag in a `CLK` from this state (rules R241, R245). -/
def underflowB (s : State) : Bool := (s.tb.update (pulseB s (underflowA s))).2

/-- The per-cycle advance of both timers and the events it records (rule R241), before its `IrqCheck`. -/
def State.advance (s : State) : State :=
  let ua := underflowA s
  let ub := underflowB s
  { s with
    ta := (s.ta.update (pulseA s)).1.stopIfOneShot ua
    tb := (s.tb.update (pulseB s ua)).1.stopIfOneShot ub
    icr := ((s.icr.recordIf ua .timerA).recordIf ub .timerB).recordIf s.flag.isFalling .flag }

/-! ### The time of day (rules R200 to R211) -/

/-- `Tick()` (rule R200). -/
def Clock.tick (c : Clock) : Clock :=
  if c.enabled then
    if c.tenths < 9 then { c with tenths := c.tenths + 1 }
    else if c.seconds < 59 then { c with tenths := 0, seconds := c.seconds + 1 }
    else if c.minutes < 59 then { c with tenths := 0, seconds := 0, minutes := c.minutes + 1 }
    else if c.hours < 12 then { c with tenths := 0, seconds := 0, minutes := 0, hours := c.hours + 1 }
    else { c with tenths := 0, seconds := 0, minutes := 0, hours := 1, pm := !c.pm }
  else c

/-- `AlarmEqual()` (rule R201). -/
def alarmEqual (c : Clock) (a : Alarm) : Bool :=
  c.tenths == a.tenths && c.seconds == a.seconds && c.minutes == a.minutes && c.hours == a.hours && c.pm == a.pm

/-- The time-of-day tick (rule R242): the advance, then the comparison on the new time, and the check only on a match. -/
def State.todTick (s : State) : State :=
  let t := { s with clock := s.clock.tick }
  if alarmEqual t.clock t.alarm then { t with icr := t.icr.setEvent .alarm }.irqCheck else t

/-- `target.tenths <- n` (rule R211). -/
def State.setTenths (s : State) (n : Nat) : State :=
  if s.todSetAlarm then { s with alarm := { s.alarm with tenths := n } }
  else { s with clock := { s.clock with tenths := n } }

/-- `target.seconds <- n` (rule R211). -/
def State.setSeconds (s : State) (n : Nat) : State :=
  if s.todSetAlarm then { s with alarm := { s.alarm with seconds := n } }
  else { s with clock := { s.clock with seconds := n } }

/-- `target.minutes <- n` (rule R211). -/
def State.setMinutes (s : State) (n : Nat) : State :=
  if s.todSetAlarm then { s with alarm := { s.alarm with minutes := n } }
  else { s with clock := { s.clock with minutes := n } }

/-- `target.hours <- n; target.pm <- pm` (rule R211). -/
def State.setHours (s : State) (n : Nat) (pm : Bool) : State :=
  if s.todSetAlarm then { s with alarm := { s.alarm with hours := n, pm := pm } }
  else { s with clock := { s.clock with hours := n, pm := pm } }

/-- The freeze latch (rule R202). -/
def State.setClockEnabled (s : State) (b : Bool) : State := { s with clock := { s.clock with enabled := b } }

/-! ### Reset (rules R300 to R309) -/

/-- `RST`: the clock, the alarm, the environment inputs and the parameters stay. -/
def State.resetChip (s : State) : State :=
  { s.lineClear with
    cnt := pinAtReset s.cfg.pinCntDefault
    flag := pinAtReset s.cfg.pinFlagDefault
    pa := portAtReset s.cfg
    pb := portAtReset s.cfg
    ta := timerAtReset s.cfg .systemClock
    tb := timerAtReset s.cfg .systemClock
    icr := icrAtReset
    intTriggered := false
    todSetAlarm := false }

/-! ### The driver (rule R5, log entries 3 and 4) -/

/-- The state in which the driver's next operation runs: it is taken from `pending`, and nothing has been returned yet. -/
def State.issued (s : State) (rest : List OpWord) : State := { s with pending := rest, result := none }

end Sys2Proof.Machine
end

