-- ==== Sys2Proof/Machine/Chip.lean ====
section
/-! DEFINITION. The chip level: `CLK`, `TOD` and the serial register (spec/44_chip.md), and `RST`
(spec/70_reset_and_hazards.md rule R300). -/

namespace Sys2Proof.Machine

/-- `CLK` (rule R241): one `IrqCheck` after all events are recorded (rule R245). -/
def execClk (s : State) : Out := .next s.advance.irqCheck

/-- `TOD` (rule R242). -/
def execTod (s : State) : Out := .next s.todTick

/-- `RST` (rule R300). -/
def execRst (s : State) : Out := .next s.resetChip

/-- `R SDR` (rule R243). -/
def execRSdr (s : State) : Out := .next (s.returning 0x00)

/-- `W SDR,v` (rule R244): nothing changes, whatever the byte. -/
def execWSdr (_v : Byte) (s : State) : Out := .next s

end Sys2Proof.Machine
end

