-- ==== Sys2Proof/Machine/IcrRegs.lean ====
section
/-! DEFINITION. The interrupt control register: the operations of spec/42_icr.md. -/

namespace Sys2Proof.Machine

/-- `R ICR` (rule R185): the data byte as it stands, then the acknowledgement, in one step. -/
def execRIcr (s : State) : Out := .next (s.acknowledge.returning s.icr.data)

/-- `W ICR,v` (rule R186): a newly satisfied request asserts the line inside the write. -/
def execWIcr (v : Byte) (s : State) : Out := .next { s with icr := s.icr.updateMask v }.irqCheck

end Sys2Proof.Machine
end

