-- ==== Sys2Proof/Machine/PinPort.lean ====
section
/-! DEFINITION. Pins, ports, keyboard and joysticks: the operations of spec/40_pin_port.md. -/

namespace Sys2Proof.Machine

/-- `R PRA` (rule R120). -/
def execRPra (s : State) : Out := .next (s.returning (praByte s))

/-- `R PRB` (rule R121). -/
def execRPrb (s : State) : Out := .next (s.returning (prbByte s))

/-- `R DDRA` (rule R122). -/
def execRDdra (s : State) : Out := .next (s.returning s.pa.direction)

/-- `R DDRB` (rule R123). -/
def execRDdrb (s : State) : Out := .next (s.returning s.pb.direction)

/-- `W PRA,v` (rule R116). -/
def execWPra (v : Byte) (s : State) : Out := .next { s with pa := { s.pa with value := v } }

/-- `W PRB,v` (rule R117). -/
def execWPrb (v : Byte) (s : State) : Out := .next { s with pb := { s.pb with value := v } }

/-- `W DDRA,v` (rule R118). -/
def execWDdra (v : Byte) (s : State) : Out := .next { s with pa := { s.pa with direction := v } }

/-- `W DDRB,v` (rule R119). -/
def execWDdrb (v : Byte) (s : State) : Out := .next { s with pb := { s.pb with direction := v } }

/-- `PIN p,l` (rule R110). -/
def execPin (p : PinSel) (l : Bool) (s : State) : Out :=
  match p with
  | .cnt => .next { s with cnt := s.cnt.set l }
  | .flag => .next { s with flag := s.flag.set l }

/-- `PORTIN p,v` (rule R114). -/
def execPortin (p : PortSel) (v : Byte) (s : State) : Out :=
  match p with
  | .a => .next { s with pa := { s.pa with external := v } }
  | .b => .next { s with pb := { s.pb with external := v } }

/-- `KEY i,m` (rule R124); a line above 7 is not an operation (rule R93) and the decoder never gives one. -/
def execKey (i : BitVec 4) (m : Byte) (s : State) : Out :=
  if h : i.toNat < 8 then .next { s with keyrow := s.keyrow.set i.toNat m h }
  else .refused (.notAnOperation .keyLine)

/-- `JOY p,m` (rule R126). -/
def execJoy (p : PortSel) (m : Byte) (s : State) : Out :=
  match p with
  | .a => .next { s with joyA := m }
  | .b => .next { s with joyB := m }

end Sys2Proof.Machine
end

