-- ==== Sys2Proof/Machine/TimerRegs.lean ====
section
/-! DEFINITION. The timer registers: the operations of spec/41_timer.md. -/

namespace Sys2Proof.Machine

/-- `R TALO` (rule R147): the live counter, never the latch. -/
def execRTalo (s : State) : Out := .next (s.returning (loByte s.ta.value))

/-- `R TAHI` (rule R148). -/
def execRTahi (s : State) : Out := .next (s.returning (hiByte s.ta.value))

/-- `R TBLO` (rule R149). -/
def execRTblo (s : State) : Out := .next (s.returning (loByte s.tb.value))

/-- `R TBHI` (rule R150). -/
def execRTbhi (s : State) : Out := .next (s.returning (hiByte s.tb.value))

/-- `R CRA` (rule R153). -/
def execRCra (s : State) : Out := .next (s.returning (craByte s.ta))

/-- `R CRB` (rule R154). -/
def execRCrb (s : State) : Out := .next (s.returning (crbByte s.cfg.crbInputDecode s.tb s.todSetAlarm))

/-- `W TALO,v` (rule R143). -/
def execWTalo (v : Byte) (s : State) : Out := .next { s with ta := s.ta.writeLo v }

/-- `W TAHI,v` (rule R144). -/
def execWTahi (v : Byte) (s : State) : Out := .next { s with ta := s.ta.writeHi v }

/-- `W TBLO,v` (rule R145). -/
def execWTblo (v : Byte) (s : State) : Out := .next { s with tb := s.tb.writeLo v }

/-- `W TBHI,v` (rule R146). -/
def execWTbhi (v : Byte) (s : State) : Out := .next { s with tb := s.tb.writeHi v }

/-- `W CRA,v` (rule R151): bits 6 and 7 are ignored. -/
def execWCra (v : Byte) (s : State) : Out :=
  .next { s with ta := s.ta.configure v (inputAOfBit (v.getLsbD 5)) }

/-- `W CRB,v` (rule R152): fatal when a substituted decode rejects the selector. -/
def execWCrb (v : Byte) (s : State) : Out :=
  match crbDecode s.cfg.crbInputDecode (crbSelector v) with
  | some input => .next { s with tb := s.tb.configure v input, todSetAlarm := v.getLsbD 7 }
  | none => .fault .malformedInputSelector

end Sys2Proof.Machine
end

