-- ==== Sys2Proof/Machine/TodRegs.lean ====
section
/-! DEFINITION. The time-of-day registers: the operations of spec/43_tod.md. Reads return the clock whatever
`tod_set_alarm` holds (rule R213); a write of a byte outside rule R85 is refused (rule R212),
or coerced where the parameters have a `TOD_COERCE` (93 U7). -/

namespace Sys2Proof.Machine

/-- `R TOD10` (rule R203): the read freezes the clock. -/
def execRTod10 (s : State) : Out := .next ((s.setClockEnabled false).returning (toBcd s.clock.tenths))

/-- `R TODSEC` (rule R204). -/
def execRTodsec (s : State) : Out := .next (s.returning (toBcd s.clock.seconds))

/-- `R TODMIN` (rule R205). -/
def execRTodmin (s : State) : Out := .next (s.returning (toBcd s.clock.minutes))

/-- `R TODHR` (rule R206). -/
def execRTodhr (s : State) : Out := .next (s.returning (toBcd s.clock.hours ||| (if s.clock.pm then 0x80 else 0x00)))

/-- `W TOD10,v` (rule R207): in clock mode the write also resumes the clock. -/
def execWTod10 (v : Byte) (s : State) : Out :=
  match tenthsValue s.cfg.todIllegal v with
  | some n => .next (if s.todSetAlarm then s.setTenths n else (s.setTenths n).setClockEnabled true)
  | none => .refused .todIllegalValue

/-- `W TODSEC,v` (rule R208). -/
def execWTodsec (v : Byte) (s : State) : Out :=
  match secondsValue s.cfg.todIllegal v with
  | some n => .next (s.setSeconds n)
  | none => .refused .todIllegalValue

/-- `W TODMIN,v` (rule R209). -/
def execWTodmin (v : Byte) (s : State) : Out :=
  match minutesValue s.cfg.todIllegal v with
  | some n => .next (s.setMinutes n)
  | none => .refused .todIllegalValue

/-- `W TODHR,v` (rule R210): the clock stops in clock mode and in alarm mode alike. -/
def execWTodhr (v : Byte) (s : State) : Out :=
  match hoursValue s.cfg.todIllegal v with
  | some n => .next ((s.setHours n (v.getLsbD 7)).setClockEnabled false)
  | none => .refused .todIllegalValue

end Sys2Proof.Machine
end

