-- ==== Sys2Proof/Machine/Dispatch.lean ====
section
/-! DEFINITION. One arm per operation (spec/44_chip.md rule R240: exhaustive, no default arm). -/

namespace Sys2Proof.Machine

def exec (i : Instr) (s : State) : Host.Outcome State Fault Refusal :=
  match i with
  | .rPra => Sys2Proof.Machine.execRPra s
  | .rPrb => Sys2Proof.Machine.execRPrb s
  | .rDdra => Sys2Proof.Machine.execRDdra s
  | .rDdrb => Sys2Proof.Machine.execRDdrb s
  | .rTalo => Sys2Proof.Machine.execRTalo s
  | .rTahi => Sys2Proof.Machine.execRTahi s
  | .rTblo => Sys2Proof.Machine.execRTblo s
  | .rTbhi => Sys2Proof.Machine.execRTbhi s
  | .rTod10 => Sys2Proof.Machine.execRTod10 s
  | .rTodsec => Sys2Proof.Machine.execRTodsec s
  | .rTodmin => Sys2Proof.Machine.execRTodmin s
  | .rTodhr => Sys2Proof.Machine.execRTodhr s
  | .rSdr => Sys2Proof.Machine.execRSdr s
  | .rIcr => Sys2Proof.Machine.execRIcr s
  | .rCra => Sys2Proof.Machine.execRCra s
  | .rCrb => Sys2Proof.Machine.execRCrb s
  | .wPra v => Sys2Proof.Machine.execWPra v s
  | .wPrb v => Sys2Proof.Machine.execWPrb v s
  | .wDdra v => Sys2Proof.Machine.execWDdra v s
  | .wDdrb v => Sys2Proof.Machine.execWDdrb v s
  | .wTalo v => Sys2Proof.Machine.execWTalo v s
  | .wTahi v => Sys2Proof.Machine.execWTahi v s
  | .wTblo v => Sys2Proof.Machine.execWTblo v s
  | .wTbhi v => Sys2Proof.Machine.execWTbhi v s
  | .wTod10 v => Sys2Proof.Machine.execWTod10 v s
  | .wTodsec v => Sys2Proof.Machine.execWTodsec v s
  | .wTodmin v => Sys2Proof.Machine.execWTodmin v s
  | .wTodhr v => Sys2Proof.Machine.execWTodhr v s
  | .wSdr v => Sys2Proof.Machine.execWSdr v s
  | .wIcr v => Sys2Proof.Machine.execWIcr v s
  | .wCra v => Sys2Proof.Machine.execWCra v s
  | .wCrb v => Sys2Proof.Machine.execWCrb v s
  | .clk => Sys2Proof.Machine.execClk s
  | .tod => Sys2Proof.Machine.execTod s
  | .rst => Sys2Proof.Machine.execRst s
  | .pin p l => Sys2Proof.Machine.execPin p l s
  | .portin p v => Sys2Proof.Machine.execPortin p v s
  | .key k m => Sys2Proof.Machine.execKey k m s
  | .joy p m => Sys2Proof.Machine.execJoy p m s

end Sys2Proof.Machine
end

