-- ==== Sys2Proof/Machine/Step.lean ====
section
/-! DEFINITION. One step: the driver issues its next operation, which takes effect whole before the next one
(spec/00_scope.md rule R5, spec/20_memory.md rule R68). -/

namespace Sys2Proof.Machine

/-- One step. With nothing to issue the state stays: it changes only inside operations (rule R5; log entry 3). A word that
is no operation is refused (rule R93; log entry 7). -/
def step (s : State) : Host.Outcome State Fault Refusal :=
  match s.pending with
  | [] => .next s
  | w :: rest =>
    match decode w with
    | .ok i => exec i (s.issued rest)
    | .error e => .refused (.notAnOperation e)

/-- The op word `w` of `nbits` bits as the next operation the driver issues (log entry 3). -/
def State.withFetchWord (s : State) (nbits w : Nat) : State :=
  { s with pending := BitVec.ofNat 16 (w % 2 ^ nbits) :: s.pending }

end Sys2Proof.Machine
end

