-- ==== Sys2Proof/Safety.lean ====
section
/-! DEFINITION. The terms in which claims are made: the invariants of spec/10_state.md rule R39, the legal ranges of the
time of day (rules R27, R28), repetition of an operation (spec/30_encoding.md rule R98), and the views of a state that some
claims compare. -/

namespace Sys2Proof.Machine

/-- The clock's fields are in the ranges of rule R27. -/
structure Clock.InRange (c : Clock) : Prop where
  tenths   : c.tenths ≤ 9
  seconds  : c.seconds ≤ 59
  minutes  : c.minutes ≤ 59
  hours_lo : 1 ≤ c.hours
  hours_hi : c.hours ≤ 12

/-- The alarm's fields are in the ranges of rule R28. -/
structure Alarm.InRange (a : Alarm) : Prop where
  tenths   : a.tenths ≤ 9
  seconds  : a.seconds ≤ 59
  minutes  : a.minutes ≤ 59
  hours_lo : 1 ≤ a.hours
  hours_hi : a.hours ≤ 12

/-- A legal `TOD_INIT` (rules R4, R310). -/
structure TodInit.InRange (t : TodInit) : Prop where
  clock : t.clock.InRange
  alarm : t.alarm.InRange

/-- The invariants of rule R39 (its fourth holds by the type of `ta.input`), and the set form of the two lines. -/
structure State.Inv (s : State) : Prop where
  /-- Invariant 1: only event bits 0, 1, 2 and 4 are ever set. -/
  event_bits : s.icr.event &&& 0xE8 = 0
  /-- Invariant 1: bit 7 of the mask is never set. -/
  mask_bit7  : s.icr.mask &&& 0x80 = 0
  /-- Invariant 2: the chip is a source of its line exactly when its output is asserted. -/
  line_iff   : Source.chip s.cfg.chipId ∈ s.line.sources ↔ s.intTriggered = true
  /-- Invariant 3: a request has asserted the output. -/
  ir_line    : s.icr.ir = true → s.intTriggered = true
  /-- Invariant 5. -/
  clock_rng  : s.clock.InRange
  /-- Invariant 5. -/
  alarm_rng  : s.alarm.InRange
  /-- The IRQ line's list stands for a set. -/
  irq_set    : s.irq.Sorted
  /-- The NMI line's list stands for a set. -/
  nmi_set    : s.nmi.Sorted

/-- `n` repetitions of one operation, as `CLK*n` and `TOD*n` (rule R98), stopping at the first that gives no next state. -/
def execTimes (i : Instr) : Nat → State → Out
  | 0, s => .next s
  | n + 1, s =>
    match exec i s with
    | .next t => execTimes i n t
    | .fault f => .fault f
    | .refused r => .refused r

/-- The reading of the clock as a number of tenths since 1:00:00.0 AM, the first reading after the hour rolls over and PM
becomes AM (rule R200). -/
def Clock.ordinal (c : Clock) : Nat :=
  (((if c.pm then 12 else 0) + (c.hours - 1)) * 3600 + c.minutes * 60 + c.seconds) * 10 + c.tenths

/-- What is left of a state without the chip's identity and the lines, which are all that the identity decides outside
port reads (rule R250). -/
def State.withoutIdentity (s : State) : State :=
  { s with cfg := { s.cfg with chipId := .cia1 }, irq := lineReleased, nmi := lineReleased }

/-- The same chip under another identity. -/
def State.withIdentity (s : State) (id : ChipId) : State := { s with cfg := { s.cfg with chipId := id } }

/-- The same chip with other output settings of its timers (rule R157). -/
def State.withOutputs (s : State) (oa ob : OutputMode) (ea eb : Bool) : State :=
  { s with
    ta := { s.ta with output := oa, outputEnabled := ea }
    tb := { s.tb with output := ob, outputEnabled := eb } }

/-! ### What a `CLK` and a `TOD` do, in the words of rules R140 to R156, R187, R200, R241 and R242 -/

/-- CNT shows a rising edge (rule R111). -/
def CntRises (s : State) : Prop := s.cnt.prevLevel = false ∧ s.cnt.level = true

/-- Timer A runs and receives a pulse (rule R155). -/
def TimerACounts (s : State) : Prop := s.ta.enabled = true ∧ (s.ta.input = .external → CntRises s)

/-- Timer A underflows: a pulse finds the running counter at 0 (rule R140). -/
def TimerAExpires (s : State) : Prop := TimerACounts s ∧ s.ta.value = 0

/-- Timer B runs and receives a pulse, the chained sources sampling timer A's underflow of the same `CLK` (rule R156). -/
def TimerBCounts (s : State) : Prop :=
  s.tb.enabled = true ∧ (s.tb.input = .external → CntRises s) ∧ (s.tb.input = .timerA → TimerAExpires s) ∧
    (s.tb.input = .timerAWithCnt → TimerAExpires s ∧ s.cnt.level = true)

/-- Timer B underflows. -/
def TimerBExpires (s : State) : Prop := TimerBCounts s ∧ s.tb.value = 0

/-- FLAG shows a falling edge (rule R111). -/
def FlagFalls (s : State) : Prop := s.flag.prevLevel = true ∧ s.flag.level = false

/-- One timer from `t` to `u` in a `CLK` (rules R140, R142): `counts` says that it runs and receives a pulse. -/
structure TimerStep {ι : Type} (counts : Prop) (t u : Timer ι) : Prop where
  /-- The pulse finds the counter at 0: reload, and a one-shot timer stops. -/
  expires : counts → t.value = 0 → u.value = t.latch ∧ (u.enabled = true ↔ t.mode = .continuous)
  /-- The pulse finds the counter above 0. -/
  counted : counts → t.value ≠ 0 → u.value.toNat + 1 = t.value.toNat ∧ u.enabled = t.enabled
  /-- No pulse, or a stopped timer. -/
  idle    : ¬counts → u.value = t.value ∧ u.enabled = t.enabled
  /-- The latch and the configuration stay. -/
  rest    : { u with value := t.value, enabled := t.enabled } = t

/-- The line that this chip does not drive. -/
def State.otherLine (s : State) : Line :=
  match s.cfg.chipId with
  | .cia1 => s.nmi
  | .cia2 => s.irq

/-- The output and the lines after an `IrqCheck` (rule R187) that ends in `t`, the output having been `s`'s before. -/
structure OutputChecked (s t : State) : Prop where
  /-- The output is asserted if it was, or if a request is pending. -/
  output : t.intTriggered = true ↔ s.intTriggered = true ∨ t.icr.event &&& t.icr.mask ≠ 0
  /-- The chip is added to its line in exactly the case in which the output goes from released to asserted. -/
  line   : ∀ x, x ∈ t.line.sources ↔
             x ∈ s.line.sources ∨ (x = .chip s.cfg.chipId ∧ s.intTriggered = false ∧ t.intTriggered = true)
  other  : t.otherLine = s.otherLine

/-- The output and the lines are as before. -/
structure OutputKept (s t : State) : Prop where
  output : t.intTriggered = s.intTriggered
  irq    : t.irq = s.irq
  nmi    : t.nmi = s.nmi

/-- The output and the lines after `Line.clear(CHIP_ID)` and `int_triggered <- 0` (rules R185, R304). -/
structure OutputReleased (s t : State) : Prop where
  output : t.intTriggered = false
  line   : ∀ x, x ∈ t.line.sources ↔ x ∈ s.line.sources ∧ x ≠ .chip s.cfg.chipId
  other  : t.otherLine = s.otherLine

/-- The effect of `CLK` (rule R241), whole. -/
structure ClkEffect (s t : State) : Prop where
  timerA : TimerStep (TimerACounts s) s.ta t.ta
  timerB : TimerStep (TimerBCounts s) s.tb t.tb
  event0 : t.icr.event.getLsbD 0 = true ↔ s.icr.event.getLsbD 0 = true ∨ TimerAExpires s
  event1 : t.icr.event.getLsbD 1 = true ↔ s.icr.event.getLsbD 1 = true ∨ TimerBExpires s
  event4 : t.icr.event.getLsbD 4 = true ↔ s.icr.event.getLsbD 4 = true ∨ FlagFalls s
  events : ∀ n, n ≠ 0 → n ≠ 1 → n ≠ 4 → t.icr.event.getLsbD n = s.icr.event.getLsbD n
  mask   : t.icr.mask = s.icr.mask
  output : OutputChecked s t
  frame  : { t with ta := s.ta, tb := s.tb, icr := s.icr, intTriggered := s.intTriggered,
                    irq := s.irq, nmi := s.nmi } = s

/-- The clock and the alarm agree in all four fields and the PM flag (rule R201). -/
structure SameReading (c : Clock) (a : Alarm) : Prop where
  tenths  : c.tenths = a.tenths
  seconds : c.seconds = a.seconds
  minutes : c.minutes = a.minutes
  hours   : c.hours = a.hours
  pm      : c.pm = a.pm

/-- The effect of `TOD` (rule R242), whole: the comparison is with the clock after its tick. -/
structure TodEffect (s t : State) : Prop where
  clock  : t.clock = s.clock.tick
  event2 : t.icr.event.getLsbD 2 = true ↔ s.icr.event.getLsbD 2 = true ∨ SameReading s.clock.tick s.alarm
  events : ∀ n, n ≠ 2 → t.icr.event.getLsbD n = s.icr.event.getLsbD n
  mask   : t.icr.mask = s.icr.mask
  checked : SameReading s.clock.tick s.alarm → OutputChecked s t
  kept   : ¬SameReading s.clock.tick s.alarm → OutputKept s t
  frame  : { t with clock := s.clock, icr := s.icr, intTriggered := s.intTriggered, irq := s.irq, nmi := s.nmi } = s

end Sys2Proof.Machine
end

