-- ==== Sys2Proof/Certificates/Slice0/Obligations.lean ====
section
/-! DEFINITION. The statements for the provers. Each docstring names the rule of spec/ it formalises. A conclusion of the form
`exec i s = .next { s with … }` is the whole frame: every field not named is unchanged, and the block has no memory beside
its fields. `0x14#8 ++ v` is the op word whose class and sel are 0x14 and whose data byte is `v` (rule R81). -/

open Sys2Proof Sys2Proof.Machine

/-! ### Encoding -/

/-- Op words of each class of rule R81, with the register addresses of rule R82, written out from those two tables; a read
with a data field that decode ignores is among them (vector V87). Most stand in spec/95_test_vectors.md; 0x1B92 and 0x617F
are its forms 0x1Bvv (rule R210) and 0x61vv (rule R114) at one byte. -/
def Obligations.SpecWordsDecodeAsWritten : Prop :=
  decode 0x0D00 = .ok .rIcr ∧ decode 0x0D55 = .ok .rIcr ∧ decode 0x0B00 = .ok .rTodhr ∧
  decode 0x1401 = .ok (.wTalo 0x01) ∧ decode 0x1F49 = .ok (.wCrb 0x49) ∧ decode 0x1B92 = .ok (.wTodhr 0x92) ∧
  decode 0x2000 = .ok .clk ∧ decode 0x3000 = .ok .tod ∧ decode 0x4000 = .ok .rst ∧
  decode 0x5101 = .ok (.pin .flag true) ∧ decode 0x5000 = .ok (.pin .cnt false) ∧
  decode 0x617F = .ok (.portin .b 0x7F) ∧ decode 0x7380 = .ok (.key 3 0x80) ∧ decode 0x81EF = .ok (.joy .b 0xEF)

/-- Rules R81, R99: decoding the canonical word of an operation gives the operation back, with every operand at every
value the encoding admits. -/
def Obligations.DecodeOfEncodeIsIdentity : Prop :=
  ∀ i : Instr, i.wellFormed = true → decode (encode i) = .ok i

/-- Rules R81, R93: a word that decodes gives a well-formed operation, whose canonical word is the word itself, but for the
data field of a read (class 0), which decode ignores and the canonical word has at zero. -/
def Obligations.EncodeOfDecodeIsCanonical : Prop :=
  ∀ (w : OpWord) (i : Instr), decode w = .ok i →
    i.wellFormed = true ∧ encode i = if w.toNat / 4096 = 0 then w &&& 0xFF00 else w

/-- Rule R93 (the spec's decision D1): the words that are no operation are exactly those it lists, and each is rejected under
the name of its own kind. `c`, `n` and `d` are the word's class, sel and data. -/
def Obligations.RejectedWordsAreExactlyTheListed : Prop :=
  ∀ w : OpWord,
    let c := w.toNat / 4096
    let n := w.toNat / 256 % 16
    let d := w.toNat % 256
    (decode w = .error .reservedClass ↔ 9 ≤ c) ∧
    (decode w = .error .ctlOperand ↔ (c = 2 ∨ c = 3 ∨ c = 4) ∧ (n ≠ 0 ∨ d ≠ 0)) ∧
    (decode w = .error .pinOperand ↔ c = 5 ∧ (1 < n ∨ 1 < d)) ∧
    (decode w = .error .portSelector ↔ c = 6 ∧ 1 < n) ∧
    (decode w = .error .keyLine ↔ c = 7 ∧ 7 < n) ∧
    (decode w = .error .joySelector ↔ c = 8 ∧ 1 < n)

/-- The decoder against the match and mask columns of spec/opcode_table.json, transcribed as `opcodeRows`: a word that
decodes is covered by the row of its mnemonic and by no other, and a rejected word is covered by none. -/
def Obligations.DecoderAgreesWithOpcodeTable : Prop :=
  ∀ w : OpWord,
    (∀ i, decode w = .ok i → ∀ r ∈ opcodeRows, r.covers w = true ↔ r.mnemonic = i.mnemonic) ∧
    (∀ e, decode w = .error e → ∀ r ∈ opcodeRows, r.covers w = false)

/-! ### The step -/

/-- Rules R5, R68: one step runs the operation that the driver's next word stands for, whole. Around it the model takes the
word from `pending` and empties `result` (the model's own fields, log entries 3 and 4). -/
def Obligations.StepRunsTheDecodedOperation : Prop :=
  ∀ (s : State) (w : OpWord) (rest : List OpWord) (i : Instr), s.pending = w :: rest → decode w = .ok i →
    step s = exec i { s with pending := rest, result := none }

/-- Rule R93: a word that is no operation is refused, under the decoder's reason (log entry 7). With no operation issued the
state stays, which is the model's own choice (log entry 3), after rule R5. -/
def Obligations.StepWithoutAnOperation : Prop :=
  ∀ s : State,
    (∀ (w : OpWord) (rest : List OpWord) (e : DecodeError), s.pending = w :: rest → decode w = .error e →
      step s = .refused (.notAnOperation e)) ∧
    (s.pending = [] → step s = .next s)

/-- The model's own entry point (log entry 3): a word placed by `withFetchWord` is the very next operation, and the rest of
what the driver has to issue is kept. -/
def Obligations.PlacedWordRunsNext : Prop :=
  ∀ (s : State) (nbits w : Nat) (i : Instr), decodeTableWord nbits w = some i →
    step (s.withFetchWord nbits w) = exec i { s with result := none }

/-! ### Reset -/

/-- Rule R300 with rules R303 and R306: `RST` from any state, whole. It keeps the clock, the alarm, the environment inputs,
the parameters, the other sources of the line and the other line, and doing it twice equals doing it once. -/
def Obligations.ResetEstablishesTheResetState : Prop :=
  decode 0x4000 = .ok .rst ∧
  ∀ s : State, ∃ t : State, exec .rst s = .next t ∧
    t.pa = { value := 0x00, direction := 0x00, external := s.cfg.portExternalReset } ∧
    t.pb = { value := 0x00, direction := 0x00, external := s.cfg.portExternalReset } ∧
    t.ta = { value := s.cfg.timerReset, latch := s.cfg.timerReset, enabled := false, mode := .continuous,
             input := .systemClock, output := .pulse, outputEnabled := false } ∧
    t.tb = { value := s.cfg.timerReset, latch := s.cfg.timerReset, enabled := false, mode := .continuous,
             input := .systemClock, output := .pulse, outputEnabled := false } ∧
    t.icr = { event := 0x00, mask := 0x00 } ∧
    t.cnt = { level := s.cfg.pinCntDefault, prevLevel := s.cfg.pinCntDefault } ∧
    t.flag = { level := s.cfg.pinFlagDefault, prevLevel := s.cfg.pinFlagDefault } ∧
    t.todSetAlarm = false ∧
    OutputReleased s t ∧
    { t with pa := s.pa, pb := s.pb, ta := s.ta, tb := s.tb, icr := s.icr, cnt := s.cnt, flag := s.flag,
             todSetAlarm := s.todSetAlarm, intTriggered := s.intTriggered, irq := s.irq, nmi := s.nmi } = s ∧
    exec .rst t = .next t

/-- Rule R310 (the spec's decisions D10, D25): a constructed chip, under any parameters and any `TOD_INIT`, is in a state that
`RST` leaves alone, with the clock and the alarm of `TOD_INIT` and the environment as rule R31 starts it. The model's own
choices in it: the driver has nothing to issue (`pending`, log entry 3) and no read has answered (`result`, log entry 4); the
machine's reset state is such a chip (log entry 14), with the default parameters of rule R4. The identity, pin levels and time
of day that the model chose for the reset state (log entries 1 and 2) are not stated. -/
def Obligations.ConstructedChipIsInTheResetState : Prop :=
  (∀ (cfg : Config) (tod : TodInit),
    let s := State.constructed cfg tod
    exec .rst s = .next s ∧ s.cfg = cfg ∧ s.clock = tod.clock ∧ s.alarm = tod.alarm ∧
    (∀ i : Fin 8, s.keyrow[i] = 0x00) ∧ s.joyA = 0xFF ∧ s.joyB = 0xFF ∧ s.pending = [] ∧ s.result = none) ∧
  (∃ (cfg : Config) (tod : TodInit), State.reset = State.constructed cfg tod ∧
    cfg.timerReset = 0xFFFF ∧ cfg.portExternalReset = 0xFF ∧ cfg.crbInputDecode = crbDecodeStandard ∧
    cfg.kbdScan = .documented ∧ cfg.joyBits = joyBitsStandard ∧ cfg.kbdChip = .cia1 ∧ cfg.todIllegal = .refused)

/-! ### Invariants and totality -/

/-- Rule R39 at construction (rule R310): every constructed chip with a legal `TOD_INIT` meets the invariants, and so does the
model's reset state. -/
def Obligations.ConstructedChipMeetsTheInvariants : Prop :=
  (∀ (cfg : Config) (tod : TodInit), tod.InRange → (State.constructed cfg tod).Inv) ∧ State.reset.Inv

/-- Rule R39: a step keeps the invariants, from every state that meets them. -/
def Obligations.StepKeepsTheInvariants : Prop :=
  ∀ s t : State, s.Inv → step s = .next t → t.Inv

/-- Rule R99: where `CRB_INPUT_DECODE` rejects no selector, as the default, every operation completes from every state, but
for the four time-of-day writes with data outside rule R85 where there is no `TOD_COERCE`. -/
def Obligations.OperationsAreTotal : Prop :=
  ∀ (i : Instr) (s : State), i.wellFormed = true →
    (∀ c, (crbDecode s.cfg.crbInputDecode c).isSome = true) →
    (s.cfg.todIllegal = .refused →
      (∀ v, i = .wTod10 v → v.toNat ≤ 9) ∧
      (∀ v, i = .wTodsec v ∨ i = .wTodmin v → v.toNat / 16 ≤ 5 ∧ v.toNat % 16 ≤ 9) ∧
      (∀ v, i = .wTodhr v → (1 ≤ v.toNat % 128 ∧ v.toNat % 128 ≤ 9) ∨ (16 ≤ v.toNat % 128 ∧ v.toNat % 128 ≤ 18))) →
    ∃ t, exec i s = .next t

/-- Rules R270 to R274: the only outcomes other than a next state are the malformed selector of `W CRB` and, where there is no
`TOD_COERCE`, a time-of-day write of a byte outside rule R85, register by register. -/
def Obligations.OnlyTheNamedStopsOccur : Prop :=
  ∀ (i : Instr) (s : State), i.wellFormed = true →
    (∀ f, exec i s = .fault f →
      f = .malformedInputSelector ∧ ∃ v, i = .wCrb v ∧ crbDecode s.cfg.crbInputDecode (v.extractLsb' 5 2) = none) ∧
    (∀ r, exec i s = .refused r →
      r = .todIllegalValue ∧ s.cfg.todIllegal = .refused ∧
        ((∃ v, i = .wTod10 v ∧ 9 < v.toNat) ∨
          (∃ v, (i = .wTodsec v ∨ i = .wTodmin v) ∧ (5 < v.toNat / 16 ∨ 9 < v.toNat % 16)) ∨
          (∃ v, i = .wTodhr v ∧
            ¬((1 ≤ v.toNat % 128 ∧ v.toNat % 128 ≤ 9) ∨ (16 ≤ v.toNat % 128 ∧ v.toNat % 128 ≤ 18)))))

/-- Rules R20, R34: no operation changes the parameters, and none reads or changes what the driver has still to issue (the
fields `cfg` and `pending` are the model's own form of them, log entries 1 and 3). -/
def Obligations.OperationsLeaveParametersAndDriverAlone : Prop :=
  ∀ (i : Instr) (s t : State), exec i s = .next t →
    t.cfg = s.cfg ∧ t.pending = s.pending ∧
    ∀ ops : List OpWord, exec i { s with pending := ops } = .next { t with pending := ops }

/-! ### Pins -/

/-- Rule R110, whole: the previous level takes the old level, then the level is set, and nothing else changes. -/
def Obligations.PinUpdateShiftsTheLevel : Prop :=
  (decode 0x5000 = .ok (.pin .cnt false) ∧ decode 0x5001 = .ok (.pin .cnt true) ∧
    decode 0x5100 = .ok (.pin .flag false) ∧ decode 0x5101 = .ok (.pin .flag true)) ∧
  ∀ (s : State) (l : Bool),
    exec (.pin .cnt l) s = .next { s with cnt := { level := l, prevLevel := s.cnt.level } } ∧
    exec (.pin .flag l) s = .next { s with flag := { level := l, prevLevel := s.flag.level } }

/-- Rule R128: no operation other than `PIN` and `RST` writes a pin record. -/
def Obligations.PinsAreWrittenOnlyByPinAndReset : Prop :=
  ∀ (i : Instr) (s t : State), exec i s = .next t →
    (t.cnt ≠ s.cnt → (∃ l, i = .pin .cnt l) ∨ i = .rst) ∧ (t.flag ≠ s.flag → (∃ l, i = .pin .flag l) ∨ i = .rst)

/-- Rule R112: an edge stays visible until the next `PIN` on that pin, so `n` clocks on one rising edge of CNT are counted
as `n` pulses by a running timer A in external mode. -/
def Obligations.EdgeIsCountedInEveryClock : Prop :=
  ∀ (s : State) (n : Nat), s.ta.enabled = true → s.ta.input = .external → CntRises s → n ≤ s.ta.value.toNat →
    ∃ t, execTimes .clk n s = .next t ∧ CntRises t ∧ t.ta.value.toNat = s.ta.value.toNat - n

/-! ### Ports, keyboard, joysticks -/

/-- Rules R118, R119, R122 and R123, whole: a direction write stores the byte and changes nothing else (the driven byte
stays), and a direction read returns the register and changes nothing; decode ignores a read's data field `v`. -/
def Obligations.DirectionRegistersAreStoredAndReadBack : Prop :=
  ∀ (s : State) (v : Byte),
    (decode (0x12#8 ++ v) = .ok (.wDdra v) ∧ exec (.wDdra v) s = .next { s with pa := { s.pa with direction := v } }) ∧
    (decode (0x13#8 ++ v) = .ok (.wDdrb v) ∧ exec (.wDdrb v) s = .next { s with pb := { s.pb with direction := v } }) ∧
    (decode (0x02#8 ++ v) = .ok .rDdra ∧ exec .rDdra s = .next { s with result := some s.pa.direction }) ∧
    (decode (0x03#8 ++ v) = .ok .rDdrb ∧ exec .rDdrb s = .next { s with result := some s.pb.direction })

/-- Rules R116 and R117 (the spec's decision D29): a port write stores all eight bits whatever the direction says, and
changes nothing else; `PORTIN` (rule R114, D9) sets the external byte and nothing else. -/
def Obligations.PortWritesStoreTheByte : Prop :=
  ∀ (s : State) (v : Byte),
    exec (.wPra v) s = .next { s with pa := { s.pa with value := v } } ∧
    exec (.wPrb v) s = .next { s with pb := { s.pb with value := v } } ∧
    exec (.portin .a v) s = .next { s with pa := { s.pa with external := v } } ∧
    exec (.portin .b v) s = .next { s with pb := { s.pb with external := v } }

/-- Rules R115 and R120, whole, bit by bit: an output line reads its driven bit and an input line its external bit, and on
the chip in keyboard-scanning mode a closed joystick switch pulls either to 0. The read changes nothing. -/
def Obligations.PortAReadSelectsBitByBit : Prop :=
  ∀ (s : State) (d : Byte), decode (0x00#8 ++ d) = .ok .rPra ∧
    ∃ b, exec .rPra s = .next { s with result := some b } ∧
      ∀ n, n < 8 → b.getLsbD n =
        ((if s.pa.direction.getLsbD n then s.pa.value.getLsbD n else s.pa.external.getLsbD n) &&
          (if s.cfg.chipId = s.cfg.kbdChip then s.joyA.getLsbD n else true))

/-- Rule R121 (the spec's decision D21), for whatever `KBD_SCAN` the parameters hold: on the chip in keyboard-scanning mode
the scan of port A's stored byte and the other joystick mask are ANDed in; on the other chip the port is plain. -/
def Obligations.PortBReadAppliesScanAndMask : Prop :=
  ∀ s : State, ∃ b, exec .rPrb s = .next { s with result := some b } ∧
    ∀ n, n < 8 → b.getLsbD n =
      ((if s.pb.direction.getLsbD n then s.pb.value.getLsbD n else s.pb.external.getLsbD n) &&
        (if s.cfg.chipId = s.cfg.kbdChip then
          (kbdScan s.cfg.kbdScan s.pa.value s.keyrow).getLsbD n && s.joyB.getLsbD n else true))

/-- Rule R125 (the spec's decision D21): the documented scan, bit by bit. The value 0x00 gives 0x00; otherwise a bit is 0 in
exactly the case in which a key is pressed there on some line whose bit of `c` is 0 (so 0xFF, which selects no line, gives
0xFF). -/
def Obligations.KeyboardScanShowsPressedKeys : Prop :=
  ∀ (c : Byte) (rows : Vector Byte 8),
    kbdScan .documented 0x00 rows = 0x00 ∧ kbdScan .documented 0xFF rows = 0xFF ∧
    (c ≠ 0x00 → ∀ n, n < 8 → ((kbdScan .documented c rows).getLsbD n = false ↔
      ∃ i : Fin 8, c.getLsbD i = false ∧ (rows[i]).getLsbD n = true))

/-- Rule R124 (the spec's decision D21): `KEY i,m` sets one line and nothing else. A line above 7 is no operation (R93)
and has no outcome in the spec; that `exec` refuses the ill-formed term by name is the model's own choice (log entry 7). -/
def Obligations.KeySetsOneMatrixLine : Prop :=
  ∀ (s : State) (i : BitVec 4) (m : Byte),
    (i.toNat ≤ 7 → ∃ t, exec (.key i m) s = .next t ∧
      (∀ j : Fin 8, t.keyrow[j] = if j.val = i.toNat then m else s.keyrow[j]) ∧ { t with keyrow := s.keyrow } = s) ∧
    (7 < i.toNat → exec (.key i m) s = .refused (.notAnOperation .keyLine))

/-- Rule R126 (the spec's decision D22): `JOY p,m` stores the mask and changes nothing else; the mask that the default
`JOY_BITS` makes of the switches is active-low, with the bits that have no switch at 1. -/
def Obligations.JoySetsTheActiveLowMask : Prop :=
  (∀ (s : State) (m : Byte),
    exec (.joy .a m) s = .next { s with joyA := m } ∧ exec (.joy .b m) s = .next { s with joyB := m }) ∧
  ∀ w : Switches, ∀ n, n < 8 → (joyMask joyBitsStandard w).getLsbD n =
    !((n == 0 && w.up) || (n == 1 && w.down) || (n == 2 && w.left) || (n == 3 && w.right) || (n == 4 && w.fire))

/-- Rules R31 and R307: the environment inputs are written by `KEY` and `JOY` only; `RST` leaves them. -/
def Obligations.EnvironmentInputsComeOnlyFromTheEnvironment : Prop :=
  ∀ (i : Instr) (s t : State), exec i s = .next t →
    (t.keyrow ≠ s.keyrow → ∃ l m, i = .key l m) ∧
    (t.joyA ≠ s.joyA → ∃ m, i = .joy .a m) ∧ (t.joyB ≠ s.joyB → ∃ m, i = .joy .b m)

/-! ### Timers -/

/-- Rules R147 to R150, whole: the two bytes of each live counter, the high one at the higher address, with no state
changed; decode ignores the data field `d`. The latch is not read. -/
def Obligations.CounterReadsReturnTheLiveBytes : Prop :=
  ∀ (s : State) (d : Byte),
    (decode (0x04#8 ++ d) = .ok .rTalo ∧ decode (0x05#8 ++ d) = .ok .rTahi ∧
      decode (0x06#8 ++ d) = .ok .rTblo ∧ decode (0x07#8 ++ d) = .ok .rTbhi) ∧
    (∃ l h : Byte, exec .rTalo s = .next { s with result := some l } ∧ exec .rTahi s = .next { s with result := some h } ∧
      256 * h.toNat + l.toNat = s.ta.value.toNat) ∧
    (∃ l h : Byte, exec .rTblo s = .next { s with result := some l } ∧ exec .rTbhi s = .next { s with result := some h } ∧
      256 * h.toNat + l.toNat = s.tb.value.toNat)

/-- Rules R144 and R146, whole: the high byte of the latch is replaced, a stopped timer takes the new latch, a running one
goes on counting, and nothing else changes. -/
def Obligations.HighLatchWriteReloadsStoppedTimer : Prop :=
  ∀ (s : State) (v : Byte),
    (decode (0x15#8 ++ v) = .ok (.wTahi v) ∧ ∃ latch : Word16,
      latch.toNat = 256 * v.toNat + s.ta.latch.toNat % 256 ∧
      exec (.wTahi v) s =
        .next { s with ta := { s.ta with latch := latch, value := if s.ta.enabled then s.ta.value else latch } }) ∧
    (decode (0x17#8 ++ v) = .ok (.wTbhi v) ∧ ∃ latch : Word16,
      latch.toNat = 256 * v.toNat + s.tb.latch.toNat % 256 ∧
      exec (.wTbhi v) s =
        .next { s with tb := { s.tb with latch := latch, value := if s.tb.enabled then s.tb.value else latch } })

/-- Rules R143 and R145 (the spec's decision D26): the low byte likewise, with the same reload of all 16 bits. -/
def Obligations.LowLatchWriteReloadsStoppedTimer : Prop :=
  ∀ (s : State) (v : Byte),
    (decode (0x14#8 ++ v) = .ok (.wTalo v) ∧ ∃ latch : Word16,
      latch.toNat = 256 * (s.ta.latch.toNat / 256) + v.toNat ∧
      exec (.wTalo v) s =
        .next { s with ta := { s.ta with latch := latch, value := if s.ta.enabled then s.ta.value else latch } }) ∧
    (decode (0x16#8 ++ v) = .ok (.wTblo v) ∧ ∃ latch : Word16,
      latch.toNat = 256 * (s.tb.latch.toNat / 256) + v.toNat ∧
      exec (.wTblo v) s =
        .next { s with tb := { s.tb with latch := latch, value := if s.tb.enabled then s.tb.value else latch } })

/-- Rule R151 (the spec's decisions D4, D6), whole: `W CRA` replaces timer A's configuration; bit 4 reloads the counter and
is not stored; bits 6 and 7 do nothing. -/
def Obligations.CraWriteConfiguresTimerA : Prop :=
  ∀ (s : State) (v : Byte), decode (0x1E#8 ++ v) = .ok (.wCra v) ∧
    exec (.wCra v) s = .next { s with
      ta := { value := if v.getLsbD 4 then s.ta.latch else s.ta.value
              latch := s.ta.latch
              enabled := v.getLsbD 0
              outputEnabled := v.getLsbD 1
              output := if v.getLsbD 2 then .toggle else .pulse
              mode := if v.getLsbD 3 then .oneShot else .continuous
              input := if v.getLsbD 5 then .external else .systemClock } }

/-- Rule R152 with rule R91 (the spec's decisions D4 to D6), whole: `W CRB` configures timer B likewise from whatever
`CRB_INPUT_DECODE` gives bits 6 and 5, sets `tod_set_alarm` from bit 7, and is fatal when a substituted decode rejects the
selector (rule R272); the default decode gives the four sources of rule R91. -/
def Obligations.CrbWriteConfiguresTimerB : Prop :=
  ∀ (s : State) (v : Byte), decode (0x1F#8 ++ v) = .ok (.wCrb v) ∧
    (∀ input, crbDecode s.cfg.crbInputDecode (v.extractLsb' 5 2) = some input →
      exec (.wCrb v) s = .next { s with
        tb := { value := if v.getLsbD 4 then s.tb.latch else s.tb.value
                latch := s.tb.latch
                enabled := v.getLsbD 0
                outputEnabled := v.getLsbD 1
                output := if v.getLsbD 2 then .toggle else .pulse
                mode := if v.getLsbD 3 then .oneShot else .continuous
                input := input }
        todSetAlarm := v.getLsbD 7 }) ∧
    (crbDecode s.cfg.crbInputDecode (v.extractLsb' 5 2) = none →
      exec (.wCrb v) s = .fault .malformedInputSelector) ∧
    crbDecode crbDecodeStandard (v.extractLsb' 5 2) =
      some (if v.getLsbD 6 then (if v.getLsbD 5 then .timerAWithCnt else .timerA)
            else (if v.getLsbD 5 then .external else .systemClock))

/-- Rules R153 and R154 (the spec's decisions D4 to D6), bit by bit: the status of each timer; bit 4 reads 0, CRA bits 6 and
7 read 0, CRB bit 7 is `tod_set_alarm`, and CRB bits 6 and 5 are the code of timer B's input wherever the decode in force
gives that input exactly one code (else a free value, log entry 9). -/
def Obligations.ControlReadsReturnTheStatus : Prop :=
  ∀ s : State,
    (∃ b, exec .rCra s = .next { s with result := some b } ∧
      b.getLsbD 0 = s.ta.enabled ∧ b.getLsbD 1 = s.ta.outputEnabled ∧
      (b.getLsbD 2 = true ↔ s.ta.output = .toggle) ∧ (b.getLsbD 3 = true ↔ s.ta.mode = .oneShot) ∧
      b.getLsbD 4 = false ∧ (b.getLsbD 5 = true ↔ s.ta.input = .external) ∧
      b.getLsbD 6 = false ∧ b.getLsbD 7 = false) ∧
    (∃ b, exec .rCrb s = .next { s with result := some b } ∧
      b.getLsbD 0 = s.tb.enabled ∧ b.getLsbD 1 = s.tb.outputEnabled ∧
      (b.getLsbD 2 = true ↔ s.tb.output = .toggle) ∧ (b.getLsbD 3 = true ↔ s.tb.mode = .oneShot) ∧
      b.getLsbD 4 = false ∧ b.getLsbD 7 = s.todSetAlarm ∧
      ∀ code : BitVec 2, (∀ c, crbDecode s.cfg.crbInputDecode c = some s.tb.input ↔ c = code) →
        b.extractLsb' 5 2 = code)

/-- Rules R241 and R245 with rules R142, R155 and R156, whole: from every state `CLK` completes with the effect of
`ClkEffect`: timer A from its pulse, timer B from its own, which may be timer A's underflow of the same clock, the events,
one check of the interrupt output after all of them, and nothing else. -/
def Obligations.ClkAdvancesTimersAndRecordsEvents : Prop :=
  decode 0x2000 = .ok .clk ∧ ∀ s : State, ∃ t, exec .clk s = .next t ∧ ClkEffect s t

/-- Rule R141: the counter of timer A (and of timer B) changes only in a `CLK` that decrements it, or at 0 reloads it,
in a latch write while the timer is stopped, in a control-register write with bit 4 set, and in `RST`; the writes copy the latch. -/
def Obligations.CounterChangesOnlyWhereListed : Prop :=
  ∀ (i : Instr) (s t : State), exec i s = .next t →
    (t.ta.value ≠ s.ta.value →
      i = .rst ∨
      (i = .clk ∧ s.ta.enabled = true ∧
        if s.ta.value = 0 then t.ta.value = s.ta.latch else t.ta.value.toNat + 1 = s.ta.value.toNat) ∨
      (t.ta.value = t.ta.latch ∧
        ((∃ v, (i = .wTalo v ∨ i = .wTahi v) ∧ s.ta.enabled = false) ∨ ∃ v, i = .wCra v ∧ v.getLsbD 4 = true))) ∧
    (t.tb.value ≠ s.tb.value →
      i = .rst ∨
      (i = .clk ∧ s.tb.enabled = true ∧
        if s.tb.value = 0 then t.tb.value = s.tb.latch else t.tb.value.toNat + 1 = s.tb.value.toNat) ∨
      (t.tb.value = t.tb.latch ∧
        ((∃ v, (i = .wTblo v ∨ i = .wTbhi v) ∧ s.tb.enabled = false) ∨ ∃ v, i = .wCrb v ∧ v.getLsbD 4 = true)))

/-- Rule R158: a running continuous timer A on the system clock, with latch and value `N` at the start, holds
`N - (m mod (N + 1))` after `m` clocks, so it underflows in the clocks numbered by the multiples of `N + 1` and in no other;
its event has been recorded by the end of clock `m` exactly if it was before or `m` is at least `N + 1`. -/
def Obligations.ContinuousTimerHasPeriodLatchPlusOne : Prop :=
  ∀ (s : State) (m : Nat), s.ta.enabled = true → s.ta.mode = .continuous → s.ta.input = .systemClock →
    s.ta.value = s.ta.latch →
    ∃ t, execTimes .clk m s = .next t ∧
      t.ta.value.toNat = s.ta.latch.toNat - m % (s.ta.latch.toNat + 1) ∧
      (TimerAExpires t ↔ (s.ta.latch.toNat + 1) ∣ (m + 1)) ∧
      (t.icr.event.getLsbD 0 = true ↔ s.icr.event.getLsbD 0 = true ∨ s.ta.latch.toNat + 1 ≤ m) ∧
      { t.ta with value := s.ta.value } = s.ta

/-- Rules R142, R158 and R159: a running one-shot timer A on the system clock with value `V` counts down through `V` clocks,
underflows in clock `V + 1`, and is then stopped with its counter at the latch, where it stays. -/
def Obligations.OneShotTimerStopsAtItsLatch : Prop :=
  ∀ (s : State) (m : Nat), s.ta.enabled = true → s.ta.mode = .oneShot → s.ta.input = .systemClock →
    ∃ t, execTimes .clk m s = .next t ∧
      (m ≤ s.ta.value.toNat → t.ta.enabled = true ∧ t.ta.value.toNat = s.ta.value.toNat - m ∧
        t.icr.event.getLsbD 0 = s.icr.event.getLsbD 0) ∧
      (s.ta.value.toNat < m → t.ta.enabled = false ∧ t.ta.value = s.ta.latch ∧ t.icr.event.getLsbD 0 = true)

/-- Rule R160: timer B chained to the underflows of a continuous timer A, both started at their latches `M` and `N`, counts one
for every `N + 1` clocks and first underflows in the clock numbered `(M + 1)(N + 1)`. -/
def Obligations.ChainedTimersMultiply : Prop :=
  ∀ (s : State) (m : Nat), s.ta.enabled = true → s.ta.mode = .continuous → s.ta.input = .systemClock →
    s.ta.value = s.ta.latch → s.tb.enabled = true → s.tb.input = .timerA → s.tb.value = s.tb.latch →
    m < (s.tb.latch.toNat + 1) * (s.ta.latch.toNat + 1) →
    ∃ t, execTimes .clk m s = .next t ∧
      t.tb.value.toNat = s.tb.latch.toNat - m / (s.ta.latch.toNat + 1) ∧
      t.icr.event.getLsbD 1 = s.icr.event.getLsbD 1 ∧
      (TimerBExpires t ↔ m + 1 = (s.tb.latch.toNat + 1) * (s.ta.latch.toNat + 1))

/-- Rule R161: a stopped timer consumes nothing: however many clocks pass, it is as it was, and its event is not recorded. -/
def Obligations.StoppedTimersConsumeNothing : Prop :=
  ∀ (s : State) (m : Nat), ∃ t, execTimes .clk m s = .next t ∧
    (s.ta.enabled = false → t.ta = s.ta ∧ t.icr.event.getLsbD 0 = s.icr.event.getLsbD 0) ∧
    (s.tb.enabled = false → t.tb = s.tb ∧ t.icr.event.getLsbD 1 = s.icr.event.getLsbD 1)

/-- Rules R127 and R157: the output settings of the timers take no part in anything but the control registers: every other
operation does the same with any other output settings (`RST` overwrites them). -/
def Obligations.OutputSettingsAffectNothingElse : Prop :=
  ∀ (i : Instr) (s t : State) (oa ob : OutputMode) (ea eb : Bool),
    i ≠ .rCra → i ≠ .rCrb → (∀ v, i ≠ .wCra v) → (∀ v, i ≠ .wCrb v) → i ≠ .rst → exec i s = .next t →
    exec i (s.withOutputs oa ob ea eb) = .next (t.withOutputs oa ob ea eb)

/-! ### Interrupt control register -/

/-- Rules R183 and R184 with rule R185 (the spec's decision D18), whole: the byte `R ICR` returns, bit by bit, and the
acknowledgement: the events, the output and the chip's hold on its line are cleared in the same step, the mask and
everything else stay. -/
def Obligations.IcrReadReturnsAndClears : Prop :=
  ∀ (s : State) (d : Byte), decode (0x0D#8 ++ d) = .ok .rIcr ∧
    ∃ t b, exec .rIcr s = .next t ∧ t.result = some b ∧
      (∀ n, n < 5 → b.getLsbD n = s.icr.event.getLsbD n) ∧ b.getLsbD 5 = false ∧ b.getLsbD 6 = false ∧
      (b.getLsbD 7 = true ↔ s.icr.event &&& s.icr.mask ≠ 0) ∧
      t.icr.event = 0x00 ∧ t.icr.mask = s.icr.mask ∧ OutputReleased s t ∧
      { t with result := s.result, icr := s.icr, intTriggered := s.intTriggered, irq := s.irq, nmi := s.nmi } = s

/-- Rules R181 and R186, whole: `W ICR` sets (bit 7 = 1) or clears the mask bits its low seven bits select and leaves the
others, then checks the output: enabling a pending event asserts the line inside the write, and no write releases it. -/
def Obligations.IcrWriteSetsOrClearsTheMask : Prop :=
  ∀ (s : State) (v : Byte), decode (0x1D#8 ++ v) = .ok (.wIcr v) ∧
    ∃ t, exec (.wIcr v) s = .next t ∧
      (∀ n, n < 7 → t.icr.mask.getLsbD n = if v.getLsbD n then v.getLsbD 7 else s.icr.mask.getLsbD n) ∧
      t.icr.mask.getLsbD 7 = s.icr.mask.getLsbD 7 ∧ t.icr.event = s.icr.event ∧ OutputChecked s t ∧
      { t with icr := s.icr, intTriggered := s.intTriggered, irq := s.irq, nmi := s.nmi } = s

/-- Rules R190 and R277: events are sticky: only `R ICR` and `RST` clear an event bit, and they clear all. -/
def Obligations.EventsStayUntilReadOrReset : Prop :=
  ∀ (i : Instr) (s t : State), exec i s = .next t →
    (i ≠ .rIcr → i ≠ .rst → ∀ n, s.icr.event.getLsbD n = true → t.icr.event.getLsbD n = true) ∧
    (i = .rIcr ∨ i = .rst → t.icr.event = 0)

/-- Rule R188, whole: an operation records an event bit that was clear in exactly these cases: bit 0 when timer A underflows,
bit 1 when timer B does, bit 4 when FLAG falls, all in `CLK`, and bit 2 when the clock equals the alarm, in `TOD`. -/
def Obligations.EventsAreRecordedOnlyByTheirSource : Prop :=
  ∀ (i : Instr) (s t : State) (n : Nat), exec i s = .next t → s.icr.event.getLsbD n = false →
    (t.icr.event.getLsbD n = true ↔
      (i = .clk ∧ ((n = 0 ∧ TimerAExpires s) ∨ (n = 1 ∧ TimerBExpires s) ∨ (n = 4 ∧ FlagFalls s))) ∨
      (i = .tod ∧ n = 2 ∧ SameReading t.clock t.alarm))

/-- Rule R191: only `R ICR` and `RST` lower the chip's output, and only `CLK`, `TOD` and `W ICR` raise it; while the output
is asserted, no other operation changes any source of the chip's line. -/
def Obligations.OutputFallsOnlyByReadOrReset : Prop :=
  ∀ (i : Instr) (s t : State), exec i s = .next t →
    (s.intTriggered = true → t.intTriggered = false → i = .rIcr ∨ i = .rst) ∧
    (s.intTriggered = false → t.intTriggered = true → i = .clk ∨ i = .tod ∨ ∃ v, i = .wIcr v) ∧
    (s.intTriggered = true → i ≠ .rIcr → i ≠ .rst → t.irq = s.irq ∧ t.nmi = s.nmi)

/-! ### Time of day -/

/-- Rule R86: the conversions and that they are inverse to each other on their domains. -/
def Obligations.BcdConversionsAreInverse : Prop :=
  (∀ n, n ≤ 99 → (toBcd n).toNat = 16 * (n / 10) + n % 10 ∧ isBcd (toBcd n) = true ∧ fromBcd (toBcd n) = n) ∧
  (∀ b : Byte, (isBcd b = true ↔ b.toNat / 16 ≤ 9 ∧ b.toNat % 16 ≤ 9) ∧
    (isBcd b = true → fromBcd b = 10 * (b.toNat / 16) + b.toNat % 16 ∧ toBcd (fromBcd b) = b))

/-- Rule R200: a tick of a running clock in its ranges is the successor on the 864,000 tenths of a day, whose order has the
hour 12 last in each half and the PM flag toggling from 12 to 1; a frozen clock stays. -/
def Obligations.TickIsTheSuccessorOnTheDay : Prop :=
  ∀ c : Clock,
    (c.enabled = false → c.tick = c) ∧
    (c.InRange → c.enabled = true →
      c.tick.InRange ∧ c.tick.enabled = true ∧ c.tick.ordinal = (c.ordinal + 1) % 864000)

/-- Rule R216: a running clock in its ranges after `n` ticks, and its two periods: half a day inverts the PM flag and changes
nothing else of the clock, a day changes nothing of it. -/
def Obligations.RunningClockRepeatsEveryDay : Prop :=
  ∀ (s : State) (n : Nat), s.clock.InRange → s.clock.enabled = true →
    ∃ t, execTimes .tod n s = .next t ∧ t.clock.InRange ∧ t.clock.enabled = true ∧
      t.clock.ordinal = (s.clock.ordinal + n) % 864000 ∧
      (n % 864000 = 0 → t.clock = s.clock) ∧
      (n % 864000 = 432000 → t.clock = { s.clock with pm := !s.clock.pm })

/-- Rule R242 with rule R201 (the spec's decisions D11, D12, D31), whole: from every state `TOD` completes with the effect of
`TodEffect`: the tick, the comparison on the new time, also of a frozen clock, event bit 2 and the check on a match, and
nothing else. -/
def Obligations.TodTicksAndComparesTheAlarm : Prop :=
  decode 0x3000 = .ok .tod ∧ ∀ s : State, ∃ t, exec .tod s = .next t ∧ TodEffect s t

/-- Rule R242, corner cases: a running clock meets an alarm in the legal ranges in exactly one of any 864,000 consecutive
ticks. -/
def Obligations.AlarmMatchesOncePerDay : Prop :=
  ∀ (c : Clock) (a : Alarm), c.InRange → c.enabled = true → a.InRange →
    ∃! k, 1 ≤ k ∧ k ≤ 864000 ∧ SameReading (Clock.tick^[k] c) a

/-- Rules R204, R205 and R206, whole: seconds, minutes and hours read as BCD digits of the clock (never of the alarm), TODHR
with the PM flag in bit 7, and no state changes; decode ignores the data field `d`. -/
def Obligations.TodReadsReturnTheClockInBcd : Prop :=
  ∀ (s : State) (d : Byte), s.clock.InRange →
    (decode (0x09#8 ++ d) = .ok .rTodsec ∧ decode (0x0A#8 ++ d) = .ok .rTodmin ∧ decode (0x0B#8 ++ d) = .ok .rTodhr) ∧
    (∃ b : Byte, exec .rTodsec s = .next { s with result := some b } ∧
      b.toNat = 16 * (s.clock.seconds / 10) + s.clock.seconds % 10) ∧
    (∃ b : Byte, exec .rTodmin s = .next { s with result := some b } ∧
      b.toNat = 16 * (s.clock.minutes / 10) + s.clock.minutes % 10) ∧
    (∃ b : Byte, exec .rTodhr s = .next { s with result := some b } ∧
      b.toNat % 128 = 16 * (s.clock.hours / 10) + s.clock.hours % 10 ∧ b.getLsbD 7 = s.clock.pm)

/-- Rule R203 (the spec's decision D13), whole: the tenths read returns the digit and freezes the clock, in both modes. -/
def Obligations.TenthsReadFreezesTheClock : Prop :=
  ∀ (s : State) (d : Byte), s.clock.InRange → decode (0x08#8 ++ d) = .ok .rTod10 ∧
    ∃ b : Byte, b.toNat = s.clock.tenths ∧
      exec .rTod10 s = .next { s with result := some b, clock := { s.clock with enabled := false } }

/-- Rule R207, whole: a tenths write of 0x00 to 0x09 reaches the clock and resumes it, or reaches the alarm and does not;
any other byte is refused where there is no `TOD_COERCE`. -/
def Obligations.TenthsWriteResumesTheClock : Prop :=
  ∀ (s : State) (v : Byte), decode (0x18#8 ++ v) = .ok (.wTod10 v) ∧
    (v.toNat ≤ 9 → exec (.wTod10 v) s = .next
      (if s.todSetAlarm then { s with alarm := { s.alarm with tenths := v.toNat } }
       else { s with clock := { s.clock with tenths := v.toNat, enabled := true } })) ∧
    (9 < v.toNat → s.cfg.todIllegal = .refused → exec (.wTod10 v) s = .refused .todIllegalValue)

/-- Rules R208 and R209, whole: a seconds or minutes write of a BCD byte up to 0x59 sets that field of the target of rule
R211 and nothing else; any other byte is refused where there is no `TOD_COERCE`. `h` and `l` are the byte's digits. -/
def Obligations.SecondsAndMinutesWritesSetTheTarget : Prop :=
  ∀ (s : State) (v : Byte),
    let h := v.toNat / 16
    let l := v.toNat % 16
    (decode (0x19#8 ++ v) = .ok (.wTodsec v) ∧ decode (0x1A#8 ++ v) = .ok (.wTodmin v)) ∧
    (h ≤ 5 → l ≤ 9 →
      exec (.wTodsec v) s = .next
        (if s.todSetAlarm then { s with alarm := { s.alarm with seconds := 10 * h + l } }
         else { s with clock := { s.clock with seconds := 10 * h + l } }) ∧
      exec (.wTodmin v) s = .next
        (if s.todSetAlarm then { s with alarm := { s.alarm with minutes := 10 * h + l } }
         else { s with clock := { s.clock with minutes := 10 * h + l } })) ∧
    (5 < h ∨ 9 < l → s.cfg.todIllegal = .refused →
      exec (.wTodsec v) s = .refused .todIllegalValue ∧ exec (.wTodmin v) s = .refused .todIllegalValue)

/-- Rule R210 (the spec's decision D14), whole: an hours write of BCD 1 to 12 with the PM flag in bit 7 sets hours and PM of
the target and stops the clock, in clock mode and in alarm mode alike; any other byte is refused where there is no
`TOD_COERCE`. -/
def Obligations.HoursWriteStopsTheClock : Prop :=
  ∀ (s : State) (v : Byte),
    let h := v.toNat % 128
    let hour := 10 * (h / 16) + h % 16
    let legal := (1 ≤ h ∧ h ≤ 9) ∨ (16 ≤ h ∧ h ≤ 18)
    decode (0x1B#8 ++ v) = .ok (.wTodhr v) ∧
    (legal → exec (.wTodhr v) s = .next
      (if s.todSetAlarm then
        { s with alarm := { s.alarm with hours := hour, pm := v.getLsbD 7 }, clock := { s.clock with enabled := false } }
       else { s with clock := { s.clock with hours := hour, pm := v.getLsbD 7, enabled := false } })) ∧
    (¬legal → s.cfg.todIllegal = .refused → exec (.wTodhr v) s = .refused .todIllegalValue)

/-- The alternative of spec/93_implementation_defined.md U7 (log entry 10): where the parameters have a `TOD_COERCE`, every
byte completes a time-of-day write, with a value of the field's range in the target and otherwise the effect of rules R207
to R210. -/
def Obligations.CoercedWritesStoreALegalValue : Prop :=
  ∀ (s : State) (k : Nat) (v : Byte), s.cfg.todIllegal = .coerced k →
    (∃ n, n ≤ 9 ∧ exec (.wTod10 v) s = .next
      (if s.todSetAlarm then { s with alarm := { s.alarm with tenths := n } }
       else { s with clock := { s.clock with tenths := n, enabled := true } })) ∧
    (∃ n, n ≤ 59 ∧ exec (.wTodsec v) s = .next
      (if s.todSetAlarm then { s with alarm := { s.alarm with seconds := n } }
       else { s with clock := { s.clock with seconds := n } })) ∧
    (∃ n, n ≤ 59 ∧ exec (.wTodmin v) s = .next
      (if s.todSetAlarm then { s with alarm := { s.alarm with minutes := n } }
       else { s with clock := { s.clock with minutes := n } })) ∧
    (∃ n, 1 ≤ n ∧ n ≤ 12 ∧ exec (.wTodhr v) s = .next
      (if s.todSetAlarm then
        { s with alarm := { s.alarm with hours := n, pm := v.getLsbD 7 }, clock := { s.clock with enabled := false } }
       else { s with clock := { s.clock with hours := n, pm := v.getLsbD 7, enabled := false } }))

/-- Rule R202 (the spec's decisions D13, D14): the freeze latch is cleared only by `R TOD10` and `W TODHR`, and set only by
`W TOD10` in clock mode; `RST` does not touch it. -/
def Obligations.FreezeLatchIsWrittenInThreePlaces : Prop :=
  ∀ (i : Instr) (s t : State), exec i s = .next t →
    (s.clock.enabled = true → t.clock.enabled = false → i = .rTod10 ∨ ∃ v, i = .wTodhr v) ∧
    (s.clock.enabled = false → t.clock.enabled = true → (∃ v, i = .wTod10 v) ∧ s.todSetAlarm = false)

/-! ### The serial register and the whole register space -/

/-- Rules R243 and R244, whole: SDR reads 0x00 and ignores every write. -/
def Obligations.SerialRegisterIsInert : Prop :=
  ∀ (s : State) (v : Byte),
    decode (0x0C#8 ++ v) = .ok .rSdr ∧ exec .rSdr s = .next { s with result := some 0x00 } ∧
    decode (0x1C#8 ++ v) = .ok (.wSdr v) ∧ exec (.wSdr v) s = .next s

/-- Rule R66, whole: two reads change state, `R ICR` and `R TOD10`; every other read only returns its byte and may be
repeated or dropped. -/
def Obligations.OnlyTwoReadsHaveSideEffects : Prop :=
  (∀ (r : Reg) (s : State), r ≠ .icr → r ≠ .tod10 →
    ∃ b, exec (readInstr r) s = .next { s with result := some b } ∧
      exec (readInstr r) { s with result := some b } = .next { s with result := some b }) ∧
  (∀ s : State, ∃ t, exec (readInstr .icr) s = .next t ∧ t.icr.event = 0 ∧ OutputReleased s t) ∧
  (∀ s : State, ∃ t, exec (readInstr .tod10) s = .next t ∧ t.clock = { s.clock with enabled := false })

/-- Rule R250 (the spec's decision D28): outside the reads of the two ports, an operation does the same on either chip, but
for the line it drives. -/
def Obligations.IdentityDecidesOnlyLineAndPortReads : Prop :=
  ∀ (i : Instr) (s : State) (id : ChipId), i ≠ .rPra → i ≠ .rPrb →
    match exec i s, exec i (s.withIdentity id) with
    | .next t, .next u => t.withoutIdentity = u.withoutIdentity
    | .fault f, .fault g => f = g
    | .refused q, .refused r => q = r
    | _, _ => False
end

