-- ==== Sys2Proof/Laws/Bits.lean ====
section
/-! SUPPORT. Operand forms and flags bit by bit: BCD, timer bytes, control bytes, the ICR. -/

namespace Sys2Proof.Machine

/-! ### Bytes -/

@[simp] theorem bitAt_getLsbD (b : Bool) (k n : Nat) :
    (bitAt b k).getLsbD n = (b && decide (k = n) && decide (k < 8)) := by
  cases b <;> simp [bitAt, BitVec.getLsbD_twoPow]
  grind

/-- The same in the form to which simp brings a bit at a numeral. -/
@[simp] theorem bitAt_getElem (b : Bool) (k n : Nat) (h : n < 8) : (bitAt b k)[n] = (b && decide (k = n)) := by
  have := bitAt_getLsbD b k n
  rw [BitVec.getLsbD_eq_getElem h] at this
  rw [this]
  cases b <;> simp
  omega

theorem ofBytes_toNat (h l : Byte) : (ofBytes h l).toNat = 256 * h.toNat + l.toNat := by
  simp only [ofBytes, BitVec.toNat_append]
  rw [← Nat.shiftLeft_add_eq_or_of_lt l.isLt, Nat.shiftLeft_eq]
  omega

theorem loByte_toNat (x : Word16) : (loByte x).toNat = x.toNat % 256 := by
  simp [loByte]

theorem hiByte_toNat (x : Word16) : (hiByte x).toNat = x.toNat / 256 := by
  have := x.isLt
  simp [hiByte, Nat.shiftRight_eq_div_pow]
  omega

@[simp] theorem ofBytes_hiByte_loByte (x : Word16) : ofBytes (hiByte x) (loByte x) = x := by
  apply BitVec.eq_of_toNat_eq
  rw [ofBytes_toNat, hiByte_toNat, loByte_toNat]
  omega

/-! ### BCD (rule R86) -/

theorem toBcd_toNat {n : Nat} (h : n ≤ 99) : (toBcd n).toNat = 16 * (n / 10) + n % 10 := by
  simp only [toBcd, BitVec.toNat_ofNat]
  omega

theorem isBcd_iff (b : Byte) : isBcd b = true ↔ b.toNat / 16 ≤ 9 ∧ b.toNat % 16 ≤ 9 := by
  simp [isBcd]

/-! ### Legal data of a time-of-day write (rules R85, R212) -/

theorem hourBits_toNat (v : Byte) : (hourBits v).toNat = v.toNat % 128 := by
  have : ∀ v : Byte, (hourBits v).toNat = v.toNat % 128 := by decide
  exact this v

theorem tenthsLegal_iff (v : Byte) : tenthsLegal v = true ↔ v.toNat ≤ 9 := by simp [tenthsLegal]

theorem fromBcd_tenths {v : Byte} (h : v.toNat ≤ 9) : fromBcd v = v.toNat := by
  unfold fromBcd
  omega

theorem sixtyLegal_iff (v : Byte) : sixtyLegal v = true ↔ v.toNat / 16 ≤ 5 ∧ v.toNat % 16 ≤ 9 := by
  simp only [sixtyLegal, isBcd, Bool.and_eq_true, decide_eq_true_eq]
  unfold fromBcd
  omega

theorem hoursLegal_iff (v : Byte) :
    hoursLegal v = true ↔ (1 ≤ v.toNat % 128 ∧ v.toNat % 128 ≤ 9) ∨ (16 ≤ v.toNat % 128 ∧ v.toNat % 128 ≤ 18) := by
  simp only [hoursLegal, isBcd, Bool.and_eq_true, decide_eq_true_eq]
  unfold fromBcd
  rw [hourBits_toNat]
  omega

/-! ### The value of a time-of-day write -/

theorem todValue_of_legal {legal : Bool} (h : legal = true) (k : TodIllegal) (bcd : Byte) (a : RegAddr) (v : Byte)
    (l p : Nat) : todValue k legal bcd a v l p = some (fromBcd bcd) := by simp [todValue, h]

theorem todValue_refused {legal : Bool} (h : legal = false) (bcd : Byte) (a : RegAddr) (v : Byte) (l p : Nat) :
    todValue .refused legal bcd a v l p = none := by simp [todValue, h]

/-- A value is the legal byte's number, or in the field's range. -/
theorem todValue_cases {k : TodIllegal} {legal : Bool} {bcd : Byte} {a : RegAddr} {v : Byte} {l p n : Nat} (hp : 0 < p)
    (h : todValue k legal bcd a v l p = some n) : (legal = true ∧ n = fromBcd bcd) ∨ (l ≤ n ∧ n < l + p) := by
  unfold todValue at h
  split at h
  · rename_i hl; cases h; exact .inl ⟨hl, rfl⟩
  · split at h
    · cases h
    · cases h
      have := Nat.mod_lt (coercedTod ‹_› a v) hp
      exact .inr (by omega)

/-- A write has no value only if its byte is illegal and there is no `TOD_COERCE`. -/
theorem todValue_none {k : TodIllegal} {legal : Bool} {bcd : Byte} {a : RegAddr} {v : Byte} {l p : Nat}
    (h : todValue k legal bcd a v l p = none) : legal = false ∧ k = .refused := by
  unfold todValue at h
  cases legal <;> cases k <;> simp_all

theorem tenthsValue_range {k : TodIllegal} {v : Byte} {n : Nat} (h : tenthsValue k v = some n) : n ≤ 9 := by
  rcases todValue_cases (by decide) h with ⟨hl, rfl⟩ | hr
  · have := (tenthsLegal_iff v).1 hl; rwa [fromBcd_tenths this]
  · omega

theorem secondsValue_range {k : TodIllegal} {v : Byte} {n : Nat} (h : secondsValue k v = some n) : n ≤ 59 := by
  rcases todValue_cases (by decide) h with ⟨hl, rfl⟩ | hr
  · have := (sixtyLegal_iff v).1 hl; unfold fromBcd; omega
  · omega

theorem minutesValue_range {k : TodIllegal} {v : Byte} {n : Nat} (h : minutesValue k v = some n) : n ≤ 59 := by
  rcases todValue_cases (by decide) h with ⟨hl, rfl⟩ | hr
  · have := (sixtyLegal_iff v).1 hl; unfold fromBcd; omega
  · omega

theorem hoursValue_range {k : TodIllegal} {v : Byte} {n : Nat} (h : hoursValue k v = some n) : 1 ≤ n ∧ n ≤ 12 := by
  rcases todValue_cases (by decide) h with ⟨hl, rfl⟩ | hr
  · have := (hoursLegal_iff v).1 hl; unfold fromBcd; rw [hourBits_toNat]; omega
  · omega

/-! ### The ICR (rules R180 to R184) -/

@[simp] theorem Icr.setEvent_mask (r : Icr) (e : Event) : (r.setEvent e).mask = r.mask := rfl

@[simp] theorem Icr.setEvent_event_bit (r : Icr) (e : Event) (n : Nat) :
    (r.setEvent e).event.getLsbD n = (r.event.getLsbD n || decide (n = e.bit)) := by
  cases e <;> simp [Icr.setEvent, Event.bit, BitVec.getLsbD_twoPow] <;> grind

@[simp] theorem Icr.recordIf_mask (r : Icr) (b : Bool) (e : Event) : (r.recordIf b e).mask = r.mask := by
  cases b <;> rfl

@[simp] theorem Icr.recordIf_event_bit (r : Icr) (b : Bool) (e : Event) (n : Nat) :
    (r.recordIf b e).event.getLsbD n = (r.event.getLsbD n || (b && decide (n = e.bit))) := by
  cases b <;> simp [Icr.recordIf]

/-- The same for a bit below 8, in the form to which simp brings a bit at a numeral. -/
@[simp] theorem Icr.setEvent_event_getElem (r : Icr) (e : Event) (n : Nat) (h : n < 8) :
    (r.setEvent e).event[n] = (r.event[n] || decide (n = e.bit)) := by
  simpa [BitVec.getLsbD_eq_getElem h] using r.setEvent_event_bit e n

@[simp] theorem Icr.recordIf_event_getElem (r : Icr) (b : Bool) (e : Event) (n : Nat) (h : n < 8) :
    (r.recordIf b e).event[n] = (r.event[n] || (b && decide (n = e.bit))) := by
  simpa [BitVec.getLsbD_eq_getElem h] using r.recordIf_event_bit b e n

@[simp] theorem Icr.updateMask_event (r : Icr) (v : Byte) : (r.updateMask v).event = r.event := rfl

theorem Icr.updateMask_mask_bit (r : Icr) (v : Byte) (n : Nat) :
    (r.updateMask v).mask.getLsbD n =
      if n < 7 ∧ v.getLsbD n = true then v.getLsbD 7 else r.mask.getLsbD n := by
  have h7 : (0x7F : Byte).getLsbD n = decide (n < 7) := by
    rcases Nat.lt_or_ge n 8 with h | h
    · interval_cases n <;> rfl
    · simp [BitVec.getLsbD_of_ge _ _ h]; omega
  unfold Icr.updateMask
  dsimp only
  split
  · rename_i hv; simp only [BitVec.getLsbD_or, BitVec.getLsbD_and, h7]; grind
  · rename_i hv
    simp only [BitVec.getLsbD_and, BitVec.getLsbD_not, h7]
    by_cases hn : n < 8
    · grind
    · have := BitVec.getLsbD_of_ge r.mask n (by omega); grind

@[simp] theorem Icr.clearEvents_event (r : Icr) : r.clearEvents.event = 0 := rfl

@[simp] theorem Icr.clearEvents_mask (r : Icr) : r.clearEvents.mask = r.mask := rfl

theorem Icr.ir_iff (r : Icr) : r.ir = true ↔ r.event &&& r.mask ≠ 0 := by simp [Icr.ir]

@[simp] theorem Icr.clearEvents_ir (r : Icr) : r.clearEvents.ir = false := by simp [Icr.ir]

theorem Icr.ir_iff_bit (r : Icr) : r.ir = true ↔ ∃ n, r.event.getLsbD n = true ∧ r.mask.getLsbD n = true := by
  rw [Icr.ir_iff]
  constructor
  · intro h
    by_contra hn
    apply h
    apply BitVec.eq_of_getLsbD_eq
    intro i _
    have := not_exists.mp hn i
    simp only [BitVec.getLsbD_and, BitVec.ofNat_eq_ofNat, BitVec.getLsbD_zero]
    grind
  · rintro ⟨n, he, hm⟩ h
    have : (r.event &&& r.mask).getLsbD n = true := by simp [he, hm]
    rw [h] at this
    simp at this

/-! ### The selector of CRB (rule R91) -/

/-- The code of an input that has exactly one. -/
theorem crbCode_of_unique {d : CrbDecode} {i : TimerBInput} {c : BitVec 2}
    (h : ∀ c', crbDecode d c' = some i ↔ c' = c) : crbCode d i = c := by
  have hf : ∀ c', (crbDecode d c' == some i) = decide (c' = c) := by
    intro c'; rw [Bool.eq_iff_iff]; simp [h]
  have hc : ∀ c : BitVec 2, [(0 : BitVec 2), 1, 2, 3].filter (fun c' => decide (c' = c)) = [c] := by decide
  simp only [crbCode, hf, hc]

/-! ### The documented keyboard scan (rule R125) -/

theorem pressedMask_getLsbD (c : Byte) (rows : Vector Byte 8) (n : Nat) :
    (pressedMask c rows).getLsbD n = true ↔ ∃ i : Fin 8, c.getLsbD i = false ∧ (rows[i]).getLsbD n = true := by
  have key : ∀ (l : List (Fin 8)) (acc : Byte),
      (l.foldl (fun acc (i : Fin 8) => if c.getLsbD i then acc else acc ||| rows[i]) acc).getLsbD n = true ↔
        acc.getLsbD n = true ∨ ∃ i ∈ l, c.getLsbD i = false ∧ (rows[i]).getLsbD n = true := by
    intro l
    induction l with
    | nil => simp
    | cons x xs ih =>
      intro acc
      rw [List.foldl_cons, ih]
      cases hx : c.getLsbD x
      · simp only [Bool.false_eq_true, if_false, BitVec.getLsbD_or, Bool.or_eq_true, List.exists_mem_cons_iff, hx, true_and,
          or_assoc]
      · simp only [if_true, List.exists_mem_cons_iff, hx, Bool.true_eq_false, false_and, false_or]
  simpa [pressedMask] using key (List.finRange 8) 0

end Sys2Proof.Machine
end

