-- ==== Sys2Proof/Laws/Decode.lean ====
section
/-! SUPPORT. The fields of an op word (spec/30_encoding.md rule R81), of a word built by the encoder, and of a word written
as its upper byte and its data byte. -/

namespace Sys2Proof

theorem opClass_toNat (w : OpWord) : (opClass w).toNat = w.toNat / 4096 := by
  have := w.isLt
  simp only [opClass, BitVec.extractLsb'_toNat, Nat.shiftRight_eq_div_pow]
  omega

theorem opSel_toNat (w : OpWord) : (opSel w).toNat = w.toNat / 256 % 16 := by
  simp only [opSel, BitVec.extractLsb'_toNat, Nat.shiftRight_eq_div_pow]

theorem opData_toNat (w : OpWord) : (opData w).toNat = w.toNat % 256 := by
  simp only [opData, BitVec.extractLsb'_toNat, Nat.shiftRight_eq_div_pow, Nat.pow_zero, Nat.div_one]

theorem opWord_toNat (c n : BitVec 4) (d : Byte) : (opWord c n d).toNat = 4096 * c.toNat + 256 * n.toNat + d.toNat := by
  simp only [opWord, BitVec.toNat_append]
  rw [← Nat.shiftLeft_add_eq_or_of_lt n.isLt, ← Nat.shiftLeft_add_eq_or_of_lt d.isLt, Nat.shiftLeft_eq, Nat.shiftLeft_eq]
  omega

@[simp] theorem opClass_opWord (c n : BitVec 4) (d : Byte) : opClass (opWord c n d) = c := by
  apply BitVec.eq_of_toNat_eq
  rw [opClass_toNat, opWord_toNat]
  omega

@[simp] theorem opSel_opWord (c n : BitVec 4) (d : Byte) : opSel (opWord c n d) = n := by
  apply BitVec.eq_of_toNat_eq
  rw [opSel_toNat, opWord_toNat]
  omega

@[simp] theorem opData_opWord (c n : BitVec 4) (d : Byte) : opData (opWord c n d) = d := by
  apply BitVec.eq_of_toNat_eq
  rw [opData_toNat, opWord_toNat]
  omega

/-- A word is its three fields. -/
theorem opWord_fields (w : OpWord) : opWord (opClass w) (opSel w) (opData w) = w := by
  apply BitVec.eq_of_toNat_eq
  rw [opWord_toNat, opClass_toNat, opSel_toNat, opData_toNat]
  omega

/-- A word written as its class and sel in one byte, and its data byte. -/
theorem append_eq_opWord (u v : Byte) : (u ++ v : OpWord) = opWord (u.extractLsb' 4 4) (u.extractLsb' 0 4) v := by
  apply BitVec.eq_of_toNat_eq
  rw [opWord_toNat, BitVec.toNat_append, ← Nat.shiftLeft_add_eq_or_of_lt v.isLt, Nat.shiftLeft_eq]
  simp only [BitVec.extractLsb'_toNat, Nat.shiftRight_eq_div_pow]
  have := u.isLt
  omega

/-- The address of a register: the inverse of `Reg.ofAddr`, in the order of rule R82. -/
theorem reg_ofAddr_surjective (r : Reg) : ∃ a, Reg.ofAddr a = r := by
  cases r
  · exact ⟨0x0, rfl⟩
  · exact ⟨0x1, rfl⟩
  · exact ⟨0x2, rfl⟩
  · exact ⟨0x3, rfl⟩
  · exact ⟨0x4, rfl⟩
  · exact ⟨0x5, rfl⟩
  · exact ⟨0x6, rfl⟩
  · exact ⟨0x7, rfl⟩
  · exact ⟨0x8, rfl⟩
  · exact ⟨0x9, rfl⟩
  · exact ⟨0xA, rfl⟩
  · exact ⟨0xB, rfl⟩
  · exact ⟨0xC, rfl⟩
  · exact ⟨0xD, rfl⟩
  · exact ⟨0xE, rfl⟩
  · exact ⟨0xF, rfl⟩

end Sys2Proof
end

