-- ==== Sys2Proof/Laws/State.lean ====
section
/-! SUPPORT. What each named update of a state leaves as it was, and what it sets: one lemma per field, so that no later proof
unfolds an update. -/

namespace Sys2Proof.Machine

variable (s : State)

/-! ### `returning` -/

@[simp] theorem State.returning_cfg (b : Byte) : (s.returning b).cfg = s.cfg := rfl
@[simp] theorem State.returning_cnt (b : Byte) : (s.returning b).cnt = s.cnt := rfl
@[simp] theorem State.returning_flag (b : Byte) : (s.returning b).flag = s.flag := rfl
@[simp] theorem State.returning_pa (b : Byte) : (s.returning b).pa = s.pa := rfl
@[simp] theorem State.returning_pb (b : Byte) : (s.returning b).pb = s.pb := rfl
@[simp] theorem State.returning_ta (b : Byte) : (s.returning b).ta = s.ta := rfl
@[simp] theorem State.returning_tb (b : Byte) : (s.returning b).tb = s.tb := rfl
@[simp] theorem State.returning_icr (b : Byte) : (s.returning b).icr = s.icr := rfl
@[simp] theorem State.returning_clock (b : Byte) : (s.returning b).clock = s.clock := rfl
@[simp] theorem State.returning_alarm (b : Byte) : (s.returning b).alarm = s.alarm := rfl
@[simp] theorem State.returning_todSetAlarm (b : Byte) : (s.returning b).todSetAlarm = s.todSetAlarm := rfl
@[simp] theorem State.returning_intTriggered (b : Byte) : (s.returning b).intTriggered = s.intTriggered := rfl
@[simp] theorem State.returning_keyrow (b : Byte) : (s.returning b).keyrow = s.keyrow := rfl
@[simp] theorem State.returning_joyA (b : Byte) : (s.returning b).joyA = s.joyA := rfl
@[simp] theorem State.returning_joyB (b : Byte) : (s.returning b).joyB = s.joyB := rfl
@[simp] theorem State.returning_irq (b : Byte) : (s.returning b).irq = s.irq := rfl
@[simp] theorem State.returning_nmi (b : Byte) : (s.returning b).nmi = s.nmi := rfl
@[simp] theorem State.returning_pending (b : Byte) : (s.returning b).pending = s.pending := rfl
@[simp] theorem State.returning_result (b : Byte) : (s.returning b).result = some b := rfl

/-! ### `issued` -/

@[simp] theorem State.issued_cfg (rest : List OpWord) : (s.issued rest).cfg = s.cfg := rfl
@[simp] theorem State.issued_cnt (rest : List OpWord) : (s.issued rest).cnt = s.cnt := rfl
@[simp] theorem State.issued_flag (rest : List OpWord) : (s.issued rest).flag = s.flag := rfl
@[simp] theorem State.issued_pa (rest : List OpWord) : (s.issued rest).pa = s.pa := rfl
@[simp] theorem State.issued_pb (rest : List OpWord) : (s.issued rest).pb = s.pb := rfl
@[simp] theorem State.issued_ta (rest : List OpWord) : (s.issued rest).ta = s.ta := rfl
@[simp] theorem State.issued_tb (rest : List OpWord) : (s.issued rest).tb = s.tb := rfl
@[simp] theorem State.issued_icr (rest : List OpWord) : (s.issued rest).icr = s.icr := rfl
@[simp] theorem State.issued_clock (rest : List OpWord) : (s.issued rest).clock = s.clock := rfl
@[simp] theorem State.issued_alarm (rest : List OpWord) : (s.issued rest).alarm = s.alarm := rfl
@[simp] theorem State.issued_todSetAlarm (rest : List OpWord) : (s.issued rest).todSetAlarm = s.todSetAlarm := rfl
@[simp] theorem State.issued_intTriggered (rest : List OpWord) : (s.issued rest).intTriggered = s.intTriggered := rfl
@[simp] theorem State.issued_keyrow (rest : List OpWord) : (s.issued rest).keyrow = s.keyrow := rfl
@[simp] theorem State.issued_joyA (rest : List OpWord) : (s.issued rest).joyA = s.joyA := rfl
@[simp] theorem State.issued_joyB (rest : List OpWord) : (s.issued rest).joyB = s.joyB := rfl
@[simp] theorem State.issued_irq (rest : List OpWord) : (s.issued rest).irq = s.irq := rfl
@[simp] theorem State.issued_nmi (rest : List OpWord) : (s.issued rest).nmi = s.nmi := rfl
@[simp] theorem State.issued_result (rest : List OpWord) : (s.issued rest).result = none := rfl
@[simp] theorem State.issued_pending (rest : List OpWord) : (s.issued rest).pending = rest := rfl

/-! ### `withFetchWord` -/

@[simp] theorem State.withFetchWord_cfg (nbits w : Nat) : (s.withFetchWord nbits w).cfg = s.cfg := rfl
@[simp] theorem State.withFetchWord_cnt (nbits w : Nat) : (s.withFetchWord nbits w).cnt = s.cnt := rfl
@[simp] theorem State.withFetchWord_flag (nbits w : Nat) : (s.withFetchWord nbits w).flag = s.flag := rfl
@[simp] theorem State.withFetchWord_pa (nbits w : Nat) : (s.withFetchWord nbits w).pa = s.pa := rfl
@[simp] theorem State.withFetchWord_pb (nbits w : Nat) : (s.withFetchWord nbits w).pb = s.pb := rfl
@[simp] theorem State.withFetchWord_ta (nbits w : Nat) : (s.withFetchWord nbits w).ta = s.ta := rfl
@[simp] theorem State.withFetchWord_tb (nbits w : Nat) : (s.withFetchWord nbits w).tb = s.tb := rfl
@[simp] theorem State.withFetchWord_icr (nbits w : Nat) : (s.withFetchWord nbits w).icr = s.icr := rfl
@[simp] theorem State.withFetchWord_clock (nbits w : Nat) : (s.withFetchWord nbits w).clock = s.clock := rfl
@[simp] theorem State.withFetchWord_alarm (nbits w : Nat) : (s.withFetchWord nbits w).alarm = s.alarm := rfl
@[simp] theorem State.withFetchWord_todSetAlarm (nbits w : Nat) : (s.withFetchWord nbits w).todSetAlarm = s.todSetAlarm :=
  rfl
@[simp] theorem State.withFetchWord_intTriggered (nbits w : Nat) : (s.withFetchWord nbits w).intTriggered = s.intTriggered :=
  rfl
@[simp] theorem State.withFetchWord_keyrow (nbits w : Nat) : (s.withFetchWord nbits w).keyrow = s.keyrow := rfl
@[simp] theorem State.withFetchWord_joyA (nbits w : Nat) : (s.withFetchWord nbits w).joyA = s.joyA := rfl
@[simp] theorem State.withFetchWord_joyB (nbits w : Nat) : (s.withFetchWord nbits w).joyB = s.joyB := rfl
@[simp] theorem State.withFetchWord_irq (nbits w : Nat) : (s.withFetchWord nbits w).irq = s.irq := rfl
@[simp] theorem State.withFetchWord_nmi (nbits w : Nat) : (s.withFetchWord nbits w).nmi = s.nmi := rfl
@[simp] theorem State.withFetchWord_result (nbits w : Nat) : (s.withFetchWord nbits w).result = s.result := rfl
@[simp] theorem State.withFetchWord_pending (nbits w : Nat) :
    (s.withFetchWord nbits w).pending = BitVec.ofNat 16 (w % 2 ^ nbits) :: s.pending := rfl

/-! ### `setClockEnabled` -/

@[simp] theorem State.setClockEnabled_cfg (b : Bool) : (s.setClockEnabled b).cfg = s.cfg := rfl
@[simp] theorem State.setClockEnabled_cnt (b : Bool) : (s.setClockEnabled b).cnt = s.cnt := rfl
@[simp] theorem State.setClockEnabled_flag (b : Bool) : (s.setClockEnabled b).flag = s.flag := rfl
@[simp] theorem State.setClockEnabled_pa (b : Bool) : (s.setClockEnabled b).pa = s.pa := rfl
@[simp] theorem State.setClockEnabled_pb (b : Bool) : (s.setClockEnabled b).pb = s.pb := rfl
@[simp] theorem State.setClockEnabled_ta (b : Bool) : (s.setClockEnabled b).ta = s.ta := rfl
@[simp] theorem State.setClockEnabled_tb (b : Bool) : (s.setClockEnabled b).tb = s.tb := rfl
@[simp] theorem State.setClockEnabled_icr (b : Bool) : (s.setClockEnabled b).icr = s.icr := rfl
@[simp] theorem State.setClockEnabled_alarm (b : Bool) : (s.setClockEnabled b).alarm = s.alarm := rfl
@[simp] theorem State.setClockEnabled_todSetAlarm (b : Bool) : (s.setClockEnabled b).todSetAlarm = s.todSetAlarm := rfl
@[simp] theorem State.setClockEnabled_intTriggered (b : Bool) : (s.setClockEnabled b).intTriggered = s.intTriggered :=
  rfl
@[simp] theorem State.setClockEnabled_keyrow (b : Bool) : (s.setClockEnabled b).keyrow = s.keyrow := rfl
@[simp] theorem State.setClockEnabled_joyA (b : Bool) : (s.setClockEnabled b).joyA = s.joyA := rfl
@[simp] theorem State.setClockEnabled_joyB (b : Bool) : (s.setClockEnabled b).joyB = s.joyB := rfl
@[simp] theorem State.setClockEnabled_irq (b : Bool) : (s.setClockEnabled b).irq = s.irq := rfl
@[simp] theorem State.setClockEnabled_nmi (b : Bool) : (s.setClockEnabled b).nmi = s.nmi := rfl
@[simp] theorem State.setClockEnabled_result (b : Bool) : (s.setClockEnabled b).result = s.result := rfl
@[simp] theorem State.setClockEnabled_pending (b : Bool) : (s.setClockEnabled b).pending = s.pending := rfl
@[simp] theorem State.setClockEnabled_clock (b : Bool) : (s.setClockEnabled b).clock =
    { s.clock with enabled := b } := rfl

/-! ### `setTenths` -/

@[simp] theorem State.setTenths_cfg (n : Nat) : (s.setTenths n).cfg = s.cfg := by unfold State.setTenths; split <;> rfl
@[simp] theorem State.setTenths_cnt (n : Nat) : (s.setTenths n).cnt = s.cnt := by unfold State.setTenths; split <;> rfl
@[simp] theorem State.setTenths_flag (n : Nat) : (s.setTenths n).flag = s.flag :=
  by unfold State.setTenths; split <;> rfl
@[simp] theorem State.setTenths_pa (n : Nat) : (s.setTenths n).pa = s.pa := by unfold State.setTenths; split <;> rfl
@[simp] theorem State.setTenths_pb (n : Nat) : (s.setTenths n).pb = s.pb := by unfold State.setTenths; split <;> rfl
@[simp] theorem State.setTenths_ta (n : Nat) : (s.setTenths n).ta = s.ta := by unfold State.setTenths; split <;> rfl
@[simp] theorem State.setTenths_tb (n : Nat) : (s.setTenths n).tb = s.tb := by unfold State.setTenths; split <;> rfl
@[simp] theorem State.setTenths_icr (n : Nat) : (s.setTenths n).icr = s.icr := by unfold State.setTenths; split <;> rfl
@[simp] theorem State.setTenths_todSetAlarm (n : Nat) : (s.setTenths n).todSetAlarm = s.todSetAlarm :=
  by unfold State.setTenths; split <;> rfl
@[simp] theorem State.setTenths_intTriggered (n : Nat) : (s.setTenths n).intTriggered = s.intTriggered :=
  by unfold State.setTenths; split <;> rfl
@[simp] theorem State.setTenths_keyrow (n : Nat) : (s.setTenths n).keyrow = s.keyrow :=
  by unfold State.setTenths; split <;> rfl
@[simp] theorem State.setTenths_joyA (n : Nat) : (s.setTenths n).joyA = s.joyA :=
  by unfold State.setTenths; split <;> rfl
@[simp] theorem State.setTenths_joyB (n : Nat) : (s.setTenths n).joyB = s.joyB :=
  by unfold State.setTenths; split <;> rfl
@[simp] theorem State.setTenths_irq (n : Nat) : (s.setTenths n).irq = s.irq := by unfold State.setTenths; split <;> rfl
@[simp] theorem State.setTenths_nmi (n : Nat) : (s.setTenths n).nmi = s.nmi := by unfold State.setTenths; split <;> rfl
@[simp] theorem State.setTenths_result (n : Nat) : (s.setTenths n).result = s.result :=
  by unfold State.setTenths; split <;> rfl
@[simp] theorem State.setTenths_pending (n : Nat) : (s.setTenths n).pending = s.pending :=
  by unfold State.setTenths; split <;> rfl
theorem State.setTenths_clock (n : Nat) :
    (s.setTenths n).clock = if s.todSetAlarm then s.clock else { s.clock with tenths := n } := by
  unfold State.setTenths; split <;> rfl
theorem State.setTenths_alarm (n : Nat) :
    (s.setTenths n).alarm = if s.todSetAlarm then { s.alarm with tenths := n } else s.alarm := by
  unfold State.setTenths; split <;> rfl

/-! ### `setSeconds` -/

@[simp] theorem State.setSeconds_cfg (n : Nat) : (s.setSeconds n).cfg = s.cfg :=
  by unfold State.setSeconds; split <;> rfl
@[simp] theorem State.setSeconds_cnt (n : Nat) : (s.setSeconds n).cnt = s.cnt :=
  by unfold State.setSeconds; split <;> rfl
@[simp] theorem State.setSeconds_flag (n : Nat) : (s.setSeconds n).flag = s.flag :=
  by unfold State.setSeconds; split <;> rfl
@[simp] theorem State.setSeconds_pa (n : Nat) : (s.setSeconds n).pa = s.pa := by unfold State.setSeconds; split <;> rfl
@[simp] theorem State.setSeconds_pb (n : Nat) : (s.setSeconds n).pb = s.pb := by unfold State.setSeconds; split <;> rfl
@[simp] theorem State.setSeconds_ta (n : Nat) : (s.setSeconds n).ta = s.ta := by unfold State.setSeconds; split <;> rfl
@[simp] theorem State.setSeconds_tb (n : Nat) : (s.setSeconds n).tb = s.tb := by unfold State.setSeconds; split <;> rfl
@[simp] theorem State.setSeconds_icr (n : Nat) : (s.setSeconds n).icr = s.icr :=
  by unfold State.setSeconds; split <;> rfl
@[simp] theorem State.setSeconds_todSetAlarm (n : Nat) : (s.setSeconds n).todSetAlarm = s.todSetAlarm :=
  by unfold State.setSeconds; split <;> rfl
@[simp] theorem State.setSeconds_intTriggered (n : Nat) : (s.setSeconds n).intTriggered = s.intTriggered :=
  by unfold State.setSeconds; split <;> rfl
@[simp] theorem State.setSeconds_keyrow (n : Nat) : (s.setSeconds n).keyrow = s.keyrow :=
  by unfold State.setSeconds; split <;> rfl
@[simp] theorem State.setSeconds_joyA (n : Nat) : (s.setSeconds n).joyA = s.joyA :=
  by unfold State.setSeconds; split <;> rfl
@[simp] theorem State.setSeconds_joyB (n : Nat) : (s.setSeconds n).joyB = s.joyB :=
  by unfold State.setSeconds; split <;> rfl
@[simp] theorem State.setSeconds_irq (n : Nat) : (s.setSeconds n).irq = s.irq :=
  by unfold State.setSeconds; split <;> rfl
@[simp] theorem State.setSeconds_nmi (n : Nat) : (s.setSeconds n).nmi = s.nmi :=
  by unfold State.setSeconds; split <;> rfl
@[simp] theorem State.setSeconds_result (n : Nat) : (s.setSeconds n).result = s.result :=
  by unfold State.setSeconds; split <;> rfl
@[simp] theorem State.setSeconds_pending (n : Nat) : (s.setSeconds n).pending = s.pending :=
  by unfold State.setSeconds; split <;> rfl
theorem State.setSeconds_clock (n : Nat) :
    (s.setSeconds n).clock = if s.todSetAlarm then s.clock else { s.clock with seconds := n } := by
  unfold State.setSeconds; split <;> rfl
theorem State.setSeconds_alarm (n : Nat) :
    (s.setSeconds n).alarm = if s.todSetAlarm then { s.alarm with seconds := n } else s.alarm := by
  unfold State.setSeconds; split <;> rfl

/-! ### `setMinutes` -/

@[simp] theorem State.setMinutes_cfg (n : Nat) : (s.setMinutes n).cfg = s.cfg :=
  by unfold State.setMinutes; split <;> rfl
@[simp] theorem State.setMinutes_cnt (n : Nat) : (s.setMinutes n).cnt = s.cnt :=
  by unfold State.setMinutes; split <;> rfl
@[simp] theorem State.setMinutes_flag (n : Nat) : (s.setMinutes n).flag = s.flag :=
  by unfold State.setMinutes; split <;> rfl
@[simp] theorem State.setMinutes_pa (n : Nat) : (s.setMinutes n).pa = s.pa := by unfold State.setMinutes; split <;> rfl
@[simp] theorem State.setMinutes_pb (n : Nat) : (s.setMinutes n).pb = s.pb := by unfold State.setMinutes; split <;> rfl
@[simp] theorem State.setMinutes_ta (n : Nat) : (s.setMinutes n).ta = s.ta := by unfold State.setMinutes; split <;> rfl
@[simp] theorem State.setMinutes_tb (n : Nat) : (s.setMinutes n).tb = s.tb := by unfold State.setMinutes; split <;> rfl
@[simp] theorem State.setMinutes_icr (n : Nat) : (s.setMinutes n).icr = s.icr :=
  by unfold State.setMinutes; split <;> rfl
@[simp] theorem State.setMinutes_todSetAlarm (n : Nat) : (s.setMinutes n).todSetAlarm = s.todSetAlarm :=
  by unfold State.setMinutes; split <;> rfl
@[simp] theorem State.setMinutes_intTriggered (n : Nat) : (s.setMinutes n).intTriggered = s.intTriggered :=
  by unfold State.setMinutes; split <;> rfl
@[simp] theorem State.setMinutes_keyrow (n : Nat) : (s.setMinutes n).keyrow = s.keyrow :=
  by unfold State.setMinutes; split <;> rfl
@[simp] theorem State.setMinutes_joyA (n : Nat) : (s.setMinutes n).joyA = s.joyA :=
  by unfold State.setMinutes; split <;> rfl
@[simp] theorem State.setMinutes_joyB (n : Nat) : (s.setMinutes n).joyB = s.joyB :=
  by unfold State.setMinutes; split <;> rfl
@[simp] theorem State.setMinutes_irq (n : Nat) : (s.setMinutes n).irq = s.irq :=
  by unfold State.setMinutes; split <;> rfl
@[simp] theorem State.setMinutes_nmi (n : Nat) : (s.setMinutes n).nmi = s.nmi :=
  by unfold State.setMinutes; split <;> rfl
@[simp] theorem State.setMinutes_result (n : Nat) : (s.setMinutes n).result = s.result :=
  by unfold State.setMinutes; split <;> rfl
@[simp] theorem State.setMinutes_pending (n : Nat) : (s.setMinutes n).pending = s.pending :=
  by unfold State.setMinutes; split <;> rfl
theorem State.setMinutes_clock (n : Nat) :
    (s.setMinutes n).clock = if s.todSetAlarm then s.clock else { s.clock with minutes := n } := by
  unfold State.setMinutes; split <;> rfl
theorem State.setMinutes_alarm (n : Nat) :
    (s.setMinutes n).alarm = if s.todSetAlarm then { s.alarm with minutes := n } else s.alarm := by
  unfold State.setMinutes; split <;> rfl

/-! ### `setHours` -/

@[simp] theorem State.setHours_cfg (n : Nat) (pm : Bool) : (s.setHours n pm).cfg = s.cfg :=
  by unfold State.setHours; split <;> rfl
@[simp] theorem State.setHours_cnt (n : Nat) (pm : Bool) : (s.setHours n pm).cnt = s.cnt :=
  by unfold State.setHours; split <;> rfl
@[simp] theorem State.setHours_flag (n : Nat) (pm : Bool) : (s.setHours n pm).flag = s.flag :=
  by unfold State.setHours; split <;> rfl
@[simp] theorem State.setHours_pa (n : Nat) (pm : Bool) : (s.setHours n pm).pa = s.pa :=
  by unfold State.setHours; split <;> rfl
@[simp] theorem State.setHours_pb (n : Nat) (pm : Bool) : (s.setHours n pm).pb = s.pb :=
  by unfold State.setHours; split <;> rfl
@[simp] theorem State.setHours_ta (n : Nat) (pm : Bool) : (s.setHours n pm).ta = s.ta :=
  by unfold State.setHours; split <;> rfl
@[simp] theorem State.setHours_tb (n : Nat) (pm : Bool) : (s.setHours n pm).tb = s.tb :=
  by unfold State.setHours; split <;> rfl
@[simp] theorem State.setHours_icr (n : Nat) (pm : Bool) : (s.setHours n pm).icr = s.icr :=
  by unfold State.setHours; split <;> rfl
@[simp] theorem State.setHours_todSetAlarm (n : Nat) (pm : Bool) : (s.setHours n pm).todSetAlarm = s.todSetAlarm :=
  by unfold State.setHours; split <;> rfl
@[simp] theorem State.setHours_intTriggered (n : Nat) (pm : Bool) : (s.setHours n pm).intTriggered = s.intTriggered :=
  by unfold State.setHours; split <;> rfl
@[simp] theorem State.setHours_keyrow (n : Nat) (pm : Bool) : (s.setHours n pm).keyrow = s.keyrow :=
  by unfold State.setHours; split <;> rfl
@[simp] theorem State.setHours_joyA (n : Nat) (pm : Bool) : (s.setHours n pm).joyA = s.joyA :=
  by unfold State.setHours; split <;> rfl
@[simp] theorem State.setHours_joyB (n : Nat) (pm : Bool) : (s.setHours n pm).joyB = s.joyB :=
  by unfold State.setHours; split <;> rfl
@[simp] theorem State.setHours_irq (n : Nat) (pm : Bool) : (s.setHours n pm).irq = s.irq :=
  by unfold State.setHours; split <;> rfl
@[simp] theorem State.setHours_nmi (n : Nat) (pm : Bool) : (s.setHours n pm).nmi = s.nmi :=
  by unfold State.setHours; split <;> rfl
@[simp] theorem State.setHours_result (n : Nat) (pm : Bool) : (s.setHours n pm).result = s.result :=
  by unfold State.setHours; split <;> rfl
@[simp] theorem State.setHours_pending (n : Nat) (pm : Bool) : (s.setHours n pm).pending = s.pending :=
  by unfold State.setHours; split <;> rfl
theorem State.setHours_clock (n : Nat) (pm : Bool) :
    (s.setHours n pm).clock = if s.todSetAlarm then s.clock else { s.clock with hours := n, pm := pm } := by
  unfold State.setHours; split <;> rfl
theorem State.setHours_alarm (n : Nat) (pm : Bool) :
    (s.setHours n pm).alarm = if s.todSetAlarm then { s.alarm with hours := n, pm := pm } else s.alarm := by
  unfold State.setHours; split <;> rfl

/-! ### `lineAssert` -/

@[simp] theorem State.lineAssert_cfg : (s.lineAssert).cfg = s.cfg := by unfold State.lineAssert; split <;> rfl
@[simp] theorem State.lineAssert_cnt : (s.lineAssert).cnt = s.cnt := by unfold State.lineAssert; split <;> rfl
@[simp] theorem State.lineAssert_flag : (s.lineAssert).flag = s.flag := by unfold State.lineAssert; split <;> rfl
@[simp] theorem State.lineAssert_pa : (s.lineAssert).pa = s.pa := by unfold State.lineAssert; split <;> rfl
@[simp] theorem State.lineAssert_pb : (s.lineAssert).pb = s.pb := by unfold State.lineAssert; split <;> rfl
@[simp] theorem State.lineAssert_ta : (s.lineAssert).ta = s.ta := by unfold State.lineAssert; split <;> rfl
@[simp] theorem State.lineAssert_tb : (s.lineAssert).tb = s.tb := by unfold State.lineAssert; split <;> rfl
@[simp] theorem State.lineAssert_icr : (s.lineAssert).icr = s.icr := by unfold State.lineAssert; split <;> rfl
@[simp] theorem State.lineAssert_clock : (s.lineAssert).clock = s.clock := by unfold State.lineAssert; split <;> rfl
@[simp] theorem State.lineAssert_alarm : (s.lineAssert).alarm = s.alarm := by unfold State.lineAssert; split <;> rfl
@[simp] theorem State.lineAssert_todSetAlarm : (s.lineAssert).todSetAlarm = s.todSetAlarm :=
  by unfold State.lineAssert; split <;> rfl
@[simp] theorem State.lineAssert_intTriggered : (s.lineAssert).intTriggered = s.intTriggered :=
  by unfold State.lineAssert; split <;> rfl
@[simp] theorem State.lineAssert_keyrow : (s.lineAssert).keyrow = s.keyrow := by unfold State.lineAssert; split <;> rfl
@[simp] theorem State.lineAssert_joyA : (s.lineAssert).joyA = s.joyA := by unfold State.lineAssert; split <;> rfl
@[simp] theorem State.lineAssert_joyB : (s.lineAssert).joyB = s.joyB := by unfold State.lineAssert; split <;> rfl
@[simp] theorem State.lineAssert_result : (s.lineAssert).result = s.result := by unfold State.lineAssert; split <;> rfl
@[simp] theorem State.lineAssert_pending : (s.lineAssert).pending = s.pending :=
  by unfold State.lineAssert; split <;> rfl

/-! ### `lineClear` -/

@[simp] theorem State.lineClear_cfg : (s.lineClear).cfg = s.cfg := by unfold State.lineClear; split <;> rfl
@[simp] theorem State.lineClear_cnt : (s.lineClear).cnt = s.cnt := by unfold State.lineClear; split <;> rfl
@[simp] theorem State.lineClear_flag : (s.lineClear).flag = s.flag := by unfold State.lineClear; split <;> rfl
@[simp] theorem State.lineClear_pa : (s.lineClear).pa = s.pa := by unfold State.lineClear; split <;> rfl
@[simp] theorem State.lineClear_pb : (s.lineClear).pb = s.pb := by unfold State.lineClear; split <;> rfl
@[simp] theorem State.lineClear_ta : (s.lineClear).ta = s.ta := by unfold State.lineClear; split <;> rfl
@[simp] theorem State.lineClear_tb : (s.lineClear).tb = s.tb := by unfold State.lineClear; split <;> rfl
@[simp] theorem State.lineClear_icr : (s.lineClear).icr = s.icr := by unfold State.lineClear; split <;> rfl
@[simp] theorem State.lineClear_clock : (s.lineClear).clock = s.clock := by unfold State.lineClear; split <;> rfl
@[simp] theorem State.lineClear_alarm : (s.lineClear).alarm = s.alarm := by unfold State.lineClear; split <;> rfl
@[simp] theorem State.lineClear_todSetAlarm : (s.lineClear).todSetAlarm = s.todSetAlarm :=
  by unfold State.lineClear; split <;> rfl
@[simp] theorem State.lineClear_intTriggered : (s.lineClear).intTriggered = s.intTriggered :=
  by unfold State.lineClear; split <;> rfl
@[simp] theorem State.lineClear_keyrow : (s.lineClear).keyrow = s.keyrow := by unfold State.lineClear; split <;> rfl
@[simp] theorem State.lineClear_joyA : (s.lineClear).joyA = s.joyA := by unfold State.lineClear; split <;> rfl
@[simp] theorem State.lineClear_joyB : (s.lineClear).joyB = s.joyB := by unfold State.lineClear; split <;> rfl
@[simp] theorem State.lineClear_result : (s.lineClear).result = s.result := by unfold State.lineClear; split <;> rfl
@[simp] theorem State.lineClear_pending : (s.lineClear).pending = s.pending := by unfold State.lineClear; split <;> rfl

/-! ### `irqCheck` -/

@[simp] theorem State.irqCheck_cfg : (s.irqCheck).cfg = s.cfg := by unfold State.irqCheck; split <;> simp
@[simp] theorem State.irqCheck_cnt : (s.irqCheck).cnt = s.cnt := by unfold State.irqCheck; split <;> simp
@[simp] theorem State.irqCheck_flag : (s.irqCheck).flag = s.flag := by unfold State.irqCheck; split <;> simp
@[simp] theorem State.irqCheck_pa : (s.irqCheck).pa = s.pa := by unfold State.irqCheck; split <;> simp
@[simp] theorem State.irqCheck_pb : (s.irqCheck).pb = s.pb := by unfold State.irqCheck; split <;> simp
@[simp] theorem State.irqCheck_ta : (s.irqCheck).ta = s.ta := by unfold State.irqCheck; split <;> simp
@[simp] theorem State.irqCheck_tb : (s.irqCheck).tb = s.tb := by unfold State.irqCheck; split <;> simp
@[simp] theorem State.irqCheck_icr : (s.irqCheck).icr = s.icr := by unfold State.irqCheck; split <;> simp
@[simp] theorem State.irqCheck_clock : (s.irqCheck).clock = s.clock := by unfold State.irqCheck; split <;> simp
@[simp] theorem State.irqCheck_alarm : (s.irqCheck).alarm = s.alarm := by unfold State.irqCheck; split <;> simp
@[simp] theorem State.irqCheck_todSetAlarm : (s.irqCheck).todSetAlarm = s.todSetAlarm :=
  by unfold State.irqCheck; split <;> simp
@[simp] theorem State.irqCheck_keyrow : (s.irqCheck).keyrow = s.keyrow := by unfold State.irqCheck; split <;> simp
@[simp] theorem State.irqCheck_joyA : (s.irqCheck).joyA = s.joyA := by unfold State.irqCheck; split <;> simp
@[simp] theorem State.irqCheck_joyB : (s.irqCheck).joyB = s.joyB := by unfold State.irqCheck; split <;> simp
@[simp] theorem State.irqCheck_result : (s.irqCheck).result = s.result := by unfold State.irqCheck; split <;> simp
@[simp] theorem State.irqCheck_pending : (s.irqCheck).pending = s.pending := by unfold State.irqCheck; split <;> simp

/-! ### `acknowledge` -/

@[simp] theorem State.acknowledge_cfg : (s.acknowledge).cfg = s.cfg := s.lineClear_cfg
@[simp] theorem State.acknowledge_cnt : (s.acknowledge).cnt = s.cnt := s.lineClear_cnt
@[simp] theorem State.acknowledge_flag : (s.acknowledge).flag = s.flag := s.lineClear_flag
@[simp] theorem State.acknowledge_pa : (s.acknowledge).pa = s.pa := s.lineClear_pa
@[simp] theorem State.acknowledge_pb : (s.acknowledge).pb = s.pb := s.lineClear_pb
@[simp] theorem State.acknowledge_ta : (s.acknowledge).ta = s.ta := s.lineClear_ta
@[simp] theorem State.acknowledge_tb : (s.acknowledge).tb = s.tb := s.lineClear_tb
@[simp] theorem State.acknowledge_clock : (s.acknowledge).clock = s.clock := s.lineClear_clock
@[simp] theorem State.acknowledge_alarm : (s.acknowledge).alarm = s.alarm := s.lineClear_alarm
@[simp] theorem State.acknowledge_todSetAlarm : (s.acknowledge).todSetAlarm = s.todSetAlarm := s.lineClear_todSetAlarm
@[simp] theorem State.acknowledge_keyrow : (s.acknowledge).keyrow = s.keyrow := s.lineClear_keyrow
@[simp] theorem State.acknowledge_joyA : (s.acknowledge).joyA = s.joyA := s.lineClear_joyA
@[simp] theorem State.acknowledge_joyB : (s.acknowledge).joyB = s.joyB := s.lineClear_joyB
@[simp] theorem State.acknowledge_result : (s.acknowledge).result = s.result := s.lineClear_result
@[simp] theorem State.acknowledge_pending : (s.acknowledge).pending = s.pending := s.lineClear_pending
@[simp] theorem State.acknowledge_icr : (s.acknowledge).icr = s.icr.clearEvents := rfl
@[simp] theorem State.acknowledge_intTriggered : (s.acknowledge).intTriggered = false := rfl

/-! ### `advance` -/

@[simp] theorem State.advance_cfg : (s.advance).cfg = s.cfg := rfl
@[simp] theorem State.advance_cnt : (s.advance).cnt = s.cnt := rfl
@[simp] theorem State.advance_flag : (s.advance).flag = s.flag := rfl
@[simp] theorem State.advance_pa : (s.advance).pa = s.pa := rfl
@[simp] theorem State.advance_pb : (s.advance).pb = s.pb := rfl
@[simp] theorem State.advance_clock : (s.advance).clock = s.clock := rfl
@[simp] theorem State.advance_alarm : (s.advance).alarm = s.alarm := rfl
@[simp] theorem State.advance_todSetAlarm : (s.advance).todSetAlarm = s.todSetAlarm := rfl
@[simp] theorem State.advance_intTriggered : (s.advance).intTriggered = s.intTriggered := rfl
@[simp] theorem State.advance_keyrow : (s.advance).keyrow = s.keyrow := rfl
@[simp] theorem State.advance_joyA : (s.advance).joyA = s.joyA := rfl
@[simp] theorem State.advance_joyB : (s.advance).joyB = s.joyB := rfl
@[simp] theorem State.advance_irq : (s.advance).irq = s.irq := rfl
@[simp] theorem State.advance_nmi : (s.advance).nmi = s.nmi := rfl
@[simp] theorem State.advance_result : (s.advance).result = s.result := rfl
@[simp] theorem State.advance_pending : (s.advance).pending = s.pending := rfl
@[simp] theorem State.advance_ta : (s.advance).ta = (s.ta.update (pulseA s)).1.stopIfOneShot (underflowA s) := rfl
@[simp] theorem State.advance_tb : (s.advance).tb =
    (s.tb.update (pulseB s (underflowA s))).1.stopIfOneShot (underflowB s) := rfl
@[simp] theorem State.advance_icr : (s.advance).icr =
    ((s.icr.recordIf (underflowA s) .timerA).recordIf (underflowB s) .timerB).recordIf s.flag.isFalling .flag := rfl

/-! ### `todTick` -/

@[simp] theorem State.todTick_cfg : (s.todTick).cfg = s.cfg := by unfold State.todTick; dsimp only; split <;> simp
@[simp] theorem State.todTick_cnt : (s.todTick).cnt = s.cnt := by unfold State.todTick; dsimp only; split <;> simp
@[simp] theorem State.todTick_flag : (s.todTick).flag = s.flag := by unfold State.todTick; dsimp only; split <;> simp
@[simp] theorem State.todTick_pa : (s.todTick).pa = s.pa := by unfold State.todTick; dsimp only; split <;> simp
@[simp] theorem State.todTick_pb : (s.todTick).pb = s.pb := by unfold State.todTick; dsimp only; split <;> simp
@[simp] theorem State.todTick_ta : (s.todTick).ta = s.ta := by unfold State.todTick; dsimp only; split <;> simp
@[simp] theorem State.todTick_tb : (s.todTick).tb = s.tb := by unfold State.todTick; dsimp only; split <;> simp
@[simp] theorem State.todTick_alarm : (s.todTick).alarm = s.alarm := by unfold State.todTick; dsimp only; split <;> simp
@[simp] theorem State.todTick_todSetAlarm : (s.todTick).todSetAlarm = s.todSetAlarm :=
  by unfold State.todTick; dsimp only; split <;> simp
@[simp] theorem State.todTick_keyrow : (s.todTick).keyrow = s.keyrow :=
  by unfold State.todTick; dsimp only; split <;> simp
@[simp] theorem State.todTick_joyA : (s.todTick).joyA = s.joyA := by unfold State.todTick; dsimp only; split <;> simp
@[simp] theorem State.todTick_joyB : (s.todTick).joyB = s.joyB := by unfold State.todTick; dsimp only; split <;> simp
@[simp] theorem State.todTick_result : (s.todTick).result = s.result :=
  by unfold State.todTick; dsimp only; split <;> simp
@[simp] theorem State.todTick_pending : (s.todTick).pending = s.pending :=
  by unfold State.todTick; dsimp only; split <;> simp

/-! ### `resetChip` -/

@[simp] theorem State.resetChip_cfg : (s.resetChip).cfg = s.cfg := s.lineClear_cfg
@[simp] theorem State.resetChip_clock : (s.resetChip).clock = s.clock := s.lineClear_clock
@[simp] theorem State.resetChip_alarm : (s.resetChip).alarm = s.alarm := s.lineClear_alarm
@[simp] theorem State.resetChip_keyrow : (s.resetChip).keyrow = s.keyrow := s.lineClear_keyrow
@[simp] theorem State.resetChip_joyA : (s.resetChip).joyA = s.joyA := s.lineClear_joyA
@[simp] theorem State.resetChip_joyB : (s.resetChip).joyB = s.joyB := s.lineClear_joyB
@[simp] theorem State.resetChip_result : (s.resetChip).result = s.result := s.lineClear_result
@[simp] theorem State.resetChip_pending : (s.resetChip).pending = s.pending := s.lineClear_pending
@[simp] theorem State.resetChip_cnt : (s.resetChip).cnt = pinAtReset s.cfg.pinCntDefault := rfl
@[simp] theorem State.resetChip_flag : (s.resetChip).flag = pinAtReset s.cfg.pinFlagDefault := rfl
@[simp] theorem State.resetChip_pa : (s.resetChip).pa = portAtReset s.cfg := rfl
@[simp] theorem State.resetChip_pb : (s.resetChip).pb = portAtReset s.cfg := rfl
@[simp] theorem State.resetChip_ta : (s.resetChip).ta = timerAtReset s.cfg .systemClock := rfl
@[simp] theorem State.resetChip_tb : (s.resetChip).tb = timerAtReset s.cfg .systemClock := rfl
@[simp] theorem State.resetChip_icr : (s.resetChip).icr = icrAtReset := rfl
@[simp] theorem State.resetChip_intTriggered : (s.resetChip).intTriggered = false := rfl
@[simp] theorem State.resetChip_todSetAlarm : (s.resetChip).todSetAlarm = false := rfl

end Sys2Proof.Machine
end

