-- ==== Sys2Proof/Laws/Ops.lean ====
section
/-! SUPPORT. For each shared operation, what it can do, said once: the timer update, the tick, the line, the check of the
interrupt output, and one inversion lemma for a step. -/

namespace Sys2Proof.Machine

/-! ### Timers (rules R140 to R142) -/

theorem Timer.update_cases {ι : Type} (t : Timer ι) (pulse : Bool) :
    (t.enabled = true ∧ pulse = true ∧ t.value = 0 ∧ t.update pulse = ({ t with value := t.latch }, true)) ∨
    (t.enabled = true ∧ pulse = true ∧ t.value ≠ 0 ∧ t.update pulse = ({ t with value := t.value - 1 }, false)) ∨
    ((t.enabled = false ∨ pulse = false) ∧ t.update pulse = (t, false)) := by
  unfold Timer.update
  cases t.enabled <;> cases pulse <;> simp
  by_cases h : t.value = 0#16 <;> simp [h]

theorem Timer.update_underflow_iff {ι : Type} (t : Timer ι) (pulse : Bool) :
    (t.update pulse).2 = true ↔ t.enabled = true ∧ pulse = true ∧ t.value = 0 := by
  rcases t.update_cases pulse with ⟨h1, h2, h3, h⟩ | ⟨h1, h2, h3, h⟩ | ⟨h1, h⟩ <;> rw [h] <;> simp_all
  rcases h1 with h1 | h1 <;> simp [h1]

/-- Below a value that is not 0, the decrement does not wrap (rule R140). -/
theorem toNat_pred {x : Word16} (h : x ≠ 0) : (x - 1).toNat + 1 = x.toNat := by
  have : x.toNat ≠ 0 := fun e => h (BitVec.eq_of_toNat_eq e)
  have := x.isLt
  simp only [BitVec.toNat_sub, BitVec.ofNat_eq_ofNat, BitVec.toNat_ofNat]
  omega

/-- One timer's part of a `CLK` (rules R140, R142). -/
theorem Timer.step_spec {ι : Type} (t : Timer ι) (pulse : Bool) {counts : Prop}
    (hc : counts ↔ t.enabled = true ∧ pulse = true) :
    TimerStep counts t ((t.update pulse).1.stopIfOneShot (t.update pulse).2) := by
  rcases t with ⟨value, latch, enabled, mode, input, output, outputEnabled⟩
  rcases Timer.update_cases ⟨value, latch, enabled, mode, input, output, outputEnabled⟩ pulse with
    ⟨h1, h2, h3, h⟩ | ⟨h1, h2, h3, h⟩ | ⟨h1, h⟩ <;> rw [h]
  · cases mode <;> constructor <;> simp_all [Timer.stopIfOneShot]
  · have := toNat_pred h3
    constructor <;> simp_all [Timer.stopIfOneShot]
  · constructor <;> simp_all [Timer.stopIfOneShot]
    all_goals (intro a b; simp_all)

theorem pulseA_iff (s : State) :
    (s.ta.enabled = true ∧ pulseA s = true) ↔ TimerACounts s := by
  unfold pulseA TimerACounts CntRises Pin.isRising
  cases s.ta.input <;> simp

theorem underflowA_iff (s : State) : underflowA s = true ↔ TimerAExpires s := by
  rw [underflowA, Timer.update_underflow_iff, TimerAExpires, ← pulseA_iff, and_assoc]

theorem pulseB_iff (s : State) :
    (s.tb.enabled = true ∧ pulseB s (underflowA s) = true) ↔ TimerBCounts s := by
  unfold pulseB TimerBCounts Pin.isHigh
  cases s.tb.input <;> simp [underflowA_iff, CntRises, Pin.isRising]

theorem underflowB_iff (s : State) : underflowB s = true ↔ TimerBExpires s := by
  rw [underflowB, Timer.update_underflow_iff, TimerBExpires, ← pulseB_iff, and_assoc]

/-! ### The line (rule R32) -/

theorem mem_insertSource (x y : Source) (l : List Source) : y ∈ insertSource x l ↔ y = x ∨ y ∈ l := by
  induction l with
  | nil => simp [insertSource]
  | cons z zs ih =>
    unfold insertSource
    split
    · simp
    · split
      · rename_i h; subst h; simp
      · simp only [List.mem_cons, ih]; tauto

theorem Source.key_injective : Function.Injective Source.key := by
  intro x y h
  rcases x with ⟨_ | _⟩ | n <;> rcases y with ⟨_ | _⟩ | m <;> simp [Source.key] at h ⊢; omega

theorem insertSource_sorted (x : Source) {l : List Source} (h : l.Pairwise fun a b => a.key < b.key) :
    (insertSource x l).Pairwise fun a b => a.key < b.key := by
  induction l with
  | nil => simp [insertSource]
  | cons z zs ih =>
    have hz := List.pairwise_cons.mp h
    unfold insertSource
    split
    · rename_i hlt
      refine List.pairwise_cons.mpr ⟨fun a ha => ?_, h⟩
      rcases List.mem_cons.mp ha with rfl | ha
      · exact hlt
      · exact hlt.trans (hz.1 a ha)
    · split
      · exact h
      · rename_i hlt hne
        refine List.pairwise_cons.mpr ⟨fun a ha => ?_, ih hz.2⟩
        rcases (mem_insertSource x a zs).mp ha with rfl | ha
        · have : a.key ≠ z.key := fun e => hne (Source.key_injective e)
          omega
        · exact hz.1 a ha

theorem Line.mem_assert (l : Line) (id : ChipId) (x : Source) :
    x ∈ (l.assert id).sources ↔ x = .chip id ∨ x ∈ l.sources := mem_insertSource _ _ _

theorem Line.mem_clear (l : Line) (id : ChipId) (x : Source) :
    x ∈ (l.clear id).sources ↔ x ∈ l.sources ∧ x ≠ .chip id := by simp [Line.clear]

/-- Asserting keeps the set form. -/
theorem Line.assert_sorted {l : Line} (id : ChipId) (h : l.Sorted) : (l.assert id).Sorted := insertSource_sorted _ h

/-- Clearing keeps the set form. -/
theorem Line.clear_sorted {l : Line} (id : ChipId) (h : l.Sorted) : (l.clear id).Sorted := List.Pairwise.filter _ h

theorem State.lineAssert_line (s : State) (x : Source) :
    x ∈ s.lineAssert.line.sources ↔ x = .chip s.cfg.chipId ∨ x ∈ s.line.sources := by
  unfold State.lineAssert State.line
  cases h : s.cfg.chipId <;> simp [h, Line.mem_assert]

theorem State.lineClear_line (s : State) (x : Source) :
    x ∈ s.lineClear.line.sources ↔ x ∈ s.line.sources ∧ x ≠ .chip s.cfg.chipId := by
  unfold State.lineClear State.line
  cases h : s.cfg.chipId <;> simp [h, Line.mem_clear]

theorem State.lineAssert_otherLine (s : State) : s.lineAssert.otherLine = s.otherLine := by
  unfold State.lineAssert State.otherLine
  cases h : s.cfg.chipId <;> simp [h]

theorem State.lineClear_otherLine (s : State) : s.lineClear.otherLine = s.otherLine := by
  unfold State.lineClear State.otherLine
  cases h : s.cfg.chipId <;> simp [h]

/-- Both lines keep the set form when the chip asserts. -/
theorem State.lineAssert_sorted {s : State} (hi : s.irq.Sorted) (hn : s.nmi.Sorted) :
    s.lineAssert.irq.Sorted ∧ s.lineAssert.nmi.Sorted := by
  unfold State.lineAssert
  split
  · exact ⟨Line.assert_sorted _ hi, hn⟩
  · exact ⟨hi, Line.assert_sorted _ hn⟩

/-- Both lines keep the set form when the chip clears. -/
theorem State.lineClear_sorted {s : State} (hi : s.irq.Sorted) (hn : s.nmi.Sorted) :
    s.lineClear.irq.Sorted ∧ s.lineClear.nmi.Sorted := by
  unfold State.lineClear
  split
  · exact ⟨Line.clear_sorted _ hi, hn⟩
  · exact ⟨hi, Line.clear_sorted _ hn⟩

/-! ### The check of the interrupt output (rule R187) -/

/-- Everything `IrqCheck` can do. -/
theorem State.irqCheck_cases (s : State) :
    (s.icr.ir = true ∧ s.intTriggered = false ∧ s.irqCheck = { s.lineAssert with intTriggered := true }) ∨
    ((s.icr.ir = false ∨ s.intTriggered = true) ∧ s.irqCheck = s) := by
  unfold State.irqCheck
  cases h : s.icr.ir <;> cases h' : s.intTriggered <;> simp

theorem State.irqCheck_output (s : State) : s.irqCheck.intTriggered = (s.intTriggered || s.icr.ir) := by
  rcases s.irqCheck_cases with ⟨h1, h2, h⟩ | ⟨h1, h⟩ <;> rw [h]
  · simp [h1]
  · rcases h1 with h1 | h1 <;> simp [h1]

/-- The state before the check differs from `s` in none of the output, the identity and the lines: then the output is
checked as rule R187 says. -/
theorem State.irqCheck_checked {s t : State} (hi : t.intTriggered = s.intTriggered) (hc : t.cfg = s.cfg)
    (hq : t.irq = s.irq) (hn : t.nmi = s.nmi) : OutputChecked s t.irqCheck := by
  have hl : t.line = s.line := by simp [State.line, hc, hq, hn]
  have ho : t.otherLine = s.otherLine := by simp [State.otherLine, hc, hq, hn]
  constructor
  · rw [State.irqCheck_output, State.irqCheck_icr, ← Icr.ir_iff, hi, Bool.or_eq_true]
  · intro x
    rw [← hl, ← hc, ← hi]
    rcases t.irqCheck_cases with ⟨h1, h2, h⟩ | ⟨h1, h⟩ <;> rw [h]
    · have : State.line { t.lineAssert with intTriggered := true } = t.lineAssert.line := rfl
      rw [this, State.lineAssert_line]
      simp only [h2]; tauto
    · cases hx : t.intTriggered <;> simp
  · rw [← ho]
    rcases t.irqCheck_cases with ⟨h1, h2, h⟩ | ⟨h1, h⟩ <;> rw [h]
    exact t.lineAssert_otherLine

/-- With the output asserted the check does nothing (rule R191). -/
theorem State.irqCheck_of_asserted {s : State} (h : s.intTriggered = true) : s.irqCheck = s := by
  simp [State.irqCheck, h]

/-- Both lines keep the set form under the check. -/
theorem State.irqCheck_sorted {s : State} (hi : s.irq.Sorted) (hn : s.nmi.Sorted) :
    s.irqCheck.irq.Sorted ∧ s.irqCheck.nmi.Sorted := by
  rcases s.irqCheck_cases with ⟨_, _, h⟩ | ⟨_, h⟩ <;> rw [h]
  · exact State.lineAssert_sorted hi hn
  · exact ⟨hi, hn⟩

/-! ### The clock (rules R200, R201) -/

theorem Clock.tick_of_frozen {c : Clock} (h : c.enabled = false) : c.tick = c := by simp [Clock.tick, h]

@[simp] theorem Clock.tick_enabled (c : Clock) : c.tick.enabled = c.enabled := by
  unfold Clock.tick; repeat' split
  all_goals rfl

theorem Clock.tick_inRange {c : Clock} (h : c.InRange) : c.tick.InRange := by
  obtain ⟨h1, h2, h3, h4, h5⟩ := h
  unfold Clock.tick; repeat' split
  all_goals constructor <;> (try dsimp only) <;> omega

theorem alarmEqual_iff (c : Clock) (a : Alarm) : alarmEqual c a = true ↔ SameReading c a := by
  simp only [alarmEqual, Bool.and_eq_true, beq_iff_eq]
  constructor
  · rintro ⟨⟨⟨⟨h1, h2⟩, h3⟩, h4⟩, h5⟩; exact ⟨h1, h2, h3, h4, h5⟩
  · rintro ⟨h1, h2, h3, h4, h5⟩; exact ⟨⟨⟨⟨h1, h2⟩, h3⟩, h4⟩, h5⟩

/-- Everything the time-of-day tick can do (rule R242). -/
theorem State.todTick_cases (s : State) :
    (SameReading s.clock.tick s.alarm ∧
      s.todTick = { s with clock := s.clock.tick, icr := s.icr.setEvent .alarm }.irqCheck) ∨
    (¬SameReading s.clock.tick s.alarm ∧ s.todTick = { s with clock := s.clock.tick }) := by
  unfold State.todTick
  dsimp only
  rw [← alarmEqual_iff]
  by_cases h : alarmEqual s.clock.tick s.alarm = true <;> simp [h]

/-! ### Steps -/

/-- Everything a step that gives a next state can be. -/
theorem step_cases {s t : State} (h : step s = .next t) :
    (s.pending = [] ∧ t = s) ∨
    ∃ w rest i, s.pending = w :: rest ∧ decode w = .ok i ∧ exec i (s.issued rest) = .next t := by
  unfold step at h
  split at h
  · rename_i hp; exact .inl ⟨hp, by cases h; rfl⟩
  · rename_i w rest hp
    split at h
    · rename_i i hd; exact .inr ⟨w, rest, i, hp, hd, h⟩
    · cases h

/-- Repetition takes one more operation at its end. -/
theorem execTimes_succ (i : Instr) (n : Nat) {s t : State} (h : execTimes i n s = .next t) :
    execTimes i (n + 1) s = exec i t := by
  induction n generalizing s with
  | zero =>
    cases h
    unfold execTimes
    cases exec i t <;> rfl
  | succ n ih =>
    unfold execTimes at h ⊢
    cases hx : exec i s with
    | next u => rw [hx] at h; exact ih h
    | fault f => rw [hx] at h; cases h
    | refused r => rw [hx] at h; cases h

/-- `KEY` by its line (rule R124). -/
theorem execKey_cases (i : BitVec 4) (m : Byte) (s : State) :
    (∃ h : i.toNat < 8, execKey i m s = .next { s with keyrow := s.keyrow.set i.toNat m h }) ∨
    (7 < i.toNat ∧ execKey i m s = .refused (.notAnOperation .keyLine)) := by
  unfold execKey
  by_cases h : i.toNat < 8
  · exact .inl ⟨h, by simp [h]⟩
  · exact .inr ⟨by omega, by simp [h]⟩

/-- `W TOD10` by the value it writes (rule R207). -/
theorem execWTod10_cases (v : Byte) (s : State) :
    (∃ n, tenthsValue s.cfg.todIllegal v = some n ∧ execWTod10 v s = .next
      (if s.todSetAlarm then { s with alarm := { s.alarm with tenths := n } }
       else { s with clock := { s.clock with tenths := n, enabled := true } })) ∨
    (tenthsValue s.cfg.todIllegal v = none ∧ execWTod10 v s = .refused .todIllegalValue) := by
  unfold execWTod10
  cases tenthsValue s.cfg.todIllegal v with
  | none => exact .inr ⟨rfl, rfl⟩
  | some n => refine .inl ⟨n, rfl, ?_⟩; cases ha : s.todSetAlarm <;> simp [State.setTenths, State.setClockEnabled, ha]

/-- `W TODSEC` by the value it writes (rule R208). -/
theorem execWTodsec_cases (v : Byte) (s : State) :
    (∃ n, secondsValue s.cfg.todIllegal v = some n ∧ execWTodsec v s = .next
      (if s.todSetAlarm then { s with alarm := { s.alarm with seconds := n } }
       else { s with clock := { s.clock with seconds := n } })) ∨
    (secondsValue s.cfg.todIllegal v = none ∧ execWTodsec v s = .refused .todIllegalValue) := by
  unfold execWTodsec
  cases secondsValue s.cfg.todIllegal v with
  | none => exact .inr ⟨rfl, rfl⟩
  | some n => exact .inl ⟨n, rfl, rfl⟩

/-- `W TODMIN` by the value it writes (rule R209). -/
theorem execWTodmin_cases (v : Byte) (s : State) :
    (∃ n, minutesValue s.cfg.todIllegal v = some n ∧ execWTodmin v s = .next
      (if s.todSetAlarm then { s with alarm := { s.alarm with minutes := n } }
       else { s with clock := { s.clock with minutes := n } })) ∨
    (minutesValue s.cfg.todIllegal v = none ∧ execWTodmin v s = .refused .todIllegalValue) := by
  unfold execWTodmin
  cases minutesValue s.cfg.todIllegal v with
  | none => exact .inr ⟨rfl, rfl⟩
  | some n => exact .inl ⟨n, rfl, rfl⟩

/-- `W TODHR` by the value it writes (rule R210). -/
theorem execWTodhr_cases (v : Byte) (s : State) :
    (∃ n, hoursValue s.cfg.todIllegal v = some n ∧ execWTodhr v s = .next
      (if s.todSetAlarm then
        { s with alarm := { s.alarm with hours := n, pm := v.getLsbD 7 }, clock := { s.clock with enabled := false } }
       else { s with clock := { s.clock with hours := n, pm := v.getLsbD 7, enabled := false } })) ∨
    (hoursValue s.cfg.todIllegal v = none ∧ execWTodhr v s = .refused .todIllegalValue) := by
  unfold execWTodhr
  cases hoursValue s.cfg.todIllegal v with
  | none => exact .inr ⟨rfl, rfl⟩
  | some n => refine .inl ⟨n, rfl, ?_⟩; cases ha : s.todSetAlarm <;> simp [State.setHours, State.setClockEnabled, ha]

/-- `W CRB` by what its selector decodes to (rule R152). -/
theorem execWCrb_cases (v : Byte) (s : State) :
    (∃ input, crbDecode s.cfg.crbInputDecode (crbSelector v) = some input ∧
      execWCrb v s = .next { s with tb := s.tb.configure v input, todSetAlarm := v.getLsbD 7 }) ∨
    (crbDecode s.cfg.crbInputDecode (crbSelector v) = none ∧ execWCrb v s = .fault .malformedInputSelector) := by
  unfold execWCrb
  cases crbDecode s.cfg.crbInputDecode (crbSelector v) <;> simp

end Sys2Proof.Machine
end

