-- ==== Sys2Proof/Laws/Exec.lean ====
section
/-! SUPPORT. Everything an operation that gives a next state can do, said once: `Effect i s t` has one case for each form of
each operation, and `exec_effect` is the inversion lemma that whole-machine proofs split on. -/

namespace Sys2Proof.Machine

/-- The next states of each operation, form by form. -/
inductive Effect : Instr → State → State → Prop where
  | rPra (s) : Effect .rPra s (s.returning (praByte s))
  | rPrb (s) : Effect .rPrb s (s.returning (prbByte s))
  | rDdra (s) : Effect .rDdra s (s.returning s.pa.direction)
  | rDdrb (s) : Effect .rDdrb s (s.returning s.pb.direction)
  | rTalo (s) : Effect .rTalo s (s.returning (loByte s.ta.value))
  | rTahi (s) : Effect .rTahi s (s.returning (hiByte s.ta.value))
  | rTblo (s) : Effect .rTblo s (s.returning (loByte s.tb.value))
  | rTbhi (s) : Effect .rTbhi s (s.returning (hiByte s.tb.value))
  | rTod10 (s) : Effect .rTod10 s ((s.setClockEnabled false).returning (toBcd s.clock.tenths))
  | rTodsec (s) : Effect .rTodsec s (s.returning (toBcd s.clock.seconds))
  | rTodmin (s) : Effect .rTodmin s (s.returning (toBcd s.clock.minutes))
  | rTodhr (s) : Effect .rTodhr s (s.returning (toBcd s.clock.hours ||| (if s.clock.pm then 0x80 else 0x00)))
  | rSdr (s) : Effect .rSdr s (s.returning 0x00)
  | rIcr (s) : Effect .rIcr s (s.acknowledge.returning s.icr.data)
  | rCra (s) : Effect .rCra s (s.returning (craByte s.ta))
  | rCrb (s) : Effect .rCrb s (s.returning (crbByte s.cfg.crbInputDecode s.tb s.todSetAlarm))
  | wPra (v s) : Effect (.wPra v) s { s with pa := { s.pa with value := v } }
  | wPrb (v s) : Effect (.wPrb v) s { s with pb := { s.pb with value := v } }
  | wDdra (v s) : Effect (.wDdra v) s { s with pa := { s.pa with direction := v } }
  | wDdrb (v s) : Effect (.wDdrb v) s { s with pb := { s.pb with direction := v } }
  | wTalo (v s) : Effect (.wTalo v) s { s with ta := s.ta.writeLo v }
  | wTahi (v s) : Effect (.wTahi v) s { s with ta := s.ta.writeHi v }
  | wTblo (v s) : Effect (.wTblo v) s { s with tb := s.tb.writeLo v }
  | wTbhi (v s) : Effect (.wTbhi v) s { s with tb := s.tb.writeHi v }
  | wTod10Alarm (v s n) (hv : tenthsValue s.cfg.todIllegal v = some n) (ha : s.todSetAlarm = true) :
      Effect (.wTod10 v) s { s with alarm := { s.alarm with tenths := n } }
  | wTod10Clock (v s n) (hv : tenthsValue s.cfg.todIllegal v = some n) (ha : s.todSetAlarm = false) :
      Effect (.wTod10 v) s { s with clock := { s.clock with tenths := n, enabled := true } }
  | wTodsecAlarm (v s n) (hv : secondsValue s.cfg.todIllegal v = some n) (ha : s.todSetAlarm = true) :
      Effect (.wTodsec v) s { s with alarm := { s.alarm with seconds := n } }
  | wTodsecClock (v s n) (hv : secondsValue s.cfg.todIllegal v = some n) (ha : s.todSetAlarm = false) :
      Effect (.wTodsec v) s { s with clock := { s.clock with seconds := n } }
  | wTodminAlarm (v s n) (hv : minutesValue s.cfg.todIllegal v = some n) (ha : s.todSetAlarm = true) :
      Effect (.wTodmin v) s { s with alarm := { s.alarm with minutes := n } }
  | wTodminClock (v s n) (hv : minutesValue s.cfg.todIllegal v = some n) (ha : s.todSetAlarm = false) :
      Effect (.wTodmin v) s { s with clock := { s.clock with minutes := n } }
  | wTodhrAlarm (v s n) (hv : hoursValue s.cfg.todIllegal v = some n) (ha : s.todSetAlarm = true) :
      Effect (.wTodhr v) s
        { s with alarm := { s.alarm with hours := n, pm := v.getLsbD 7 }, clock := { s.clock with enabled := false } }
  | wTodhrClock (v s n) (hv : hoursValue s.cfg.todIllegal v = some n) (ha : s.todSetAlarm = false) :
      Effect (.wTodhr v) s { s with clock := { s.clock with hours := n, pm := v.getLsbD 7, enabled := false } }
  | wSdr (v s) : Effect (.wSdr v) s s
  | wIcr (v s) : Effect (.wIcr v) s { s with icr := s.icr.updateMask v }.irqCheck
  | wCra (v s) : Effect (.wCra v) s { s with ta := s.ta.configure v (inputAOfBit (v.getLsbD 5)) }
  | wCrb (v s input) (hd : crbDecode s.cfg.crbInputDecode (crbSelector v) = some input) :
      Effect (.wCrb v) s { s with tb := s.tb.configure v input, todSetAlarm := v.getLsbD 7 }
  | clk (s) : Effect .clk s s.advance.irqCheck
  | todMatch (s) (hm : SameReading s.clock.tick s.alarm) :
      Effect .tod s { s with clock := s.clock.tick, icr := s.icr.setEvent .alarm }.irqCheck
  | todNoMatch (s) (hm : ¬SameReading s.clock.tick s.alarm) : Effect .tod s { s with clock := s.clock.tick }
  | rst (s) : Effect .rst s s.resetChip
  | pinCnt (l s) : Effect (.pin .cnt l) s { s with cnt := s.cnt.set l }
  | pinFlag (l s) : Effect (.pin .flag l) s { s with flag := s.flag.set l }
  | portinA (v s) : Effect (.portin .a v) s { s with pa := { s.pa with external := v } }
  | portinB (v s) : Effect (.portin .b v) s { s with pb := { s.pb with external := v } }
  | key (i m s) (h : i.toNat < 8) : Effect (.key i m) s { s with keyrow := s.keyrow.set i.toNat m h }
  | joyA (m s) : Effect (.joy .a m) s { s with joyA := m }
  | joyB (m s) : Effect (.joy .b m) s { s with joyB := m }

/-- Inversion of `exec`. -/
theorem exec_effect {i : Instr} {s t : State} (h : exec i s = .next t) : Effect i s t := by
  cases i with
  | wCrb v =>
    rcases execWCrb_cases v s with ⟨input, hd, h'⟩ | ⟨_, h'⟩ <;> rw [exec, h'] at h <;> cases h
    exact .wCrb v s input hd
  | key l m =>
    rcases execKey_cases l m s with ⟨hl, h'⟩ | ⟨_, h'⟩ <;> rw [exec, h'] at h <;> cases h
    exact .key l m s hl
  | pin p l => cases p <;> cases h <;> constructor
  | portin p v => cases p <;> cases h <;> constructor
  | joy p m => cases p <;> cases h <;> constructor
  | wTod10 v =>
    rcases execWTod10_cases v s with ⟨n, hv, h'⟩ | ⟨_, h'⟩ <;> rw [exec, h'] at h <;> cases h
    by_cases ha : s.todSetAlarm = true
    · rw [if_pos ha]; exact .wTod10Alarm v s n hv ha
    · rw [if_neg ha]; exact .wTod10Clock v s n hv (by simpa using ha)
  | wTodsec v =>
    rcases execWTodsec_cases v s with ⟨n, hv, h'⟩ | ⟨_, h'⟩ <;> rw [exec, h'] at h <;> cases h
    by_cases ha : s.todSetAlarm = true
    · rw [if_pos ha]; exact .wTodsecAlarm v s n hv ha
    · rw [if_neg ha]; exact .wTodsecClock v s n hv (by simpa using ha)
  | wTodmin v =>
    rcases execWTodmin_cases v s with ⟨n, hv, h'⟩ | ⟨_, h'⟩ <;> rw [exec, h'] at h <;> cases h
    by_cases ha : s.todSetAlarm = true
    · rw [if_pos ha]; exact .wTodminAlarm v s n hv ha
    · rw [if_neg ha]; exact .wTodminClock v s n hv (by simpa using ha)
  | wTodhr v =>
    rcases execWTodhr_cases v s with ⟨n, hv, h'⟩ | ⟨_, h'⟩ <;> rw [exec, h'] at h <;> cases h
    by_cases ha : s.todSetAlarm = true
    · rw [if_pos ha]; exact .wTodhrAlarm v s n hv ha
    · rw [if_neg ha]; exact .wTodhrClock v s n hv (by simpa using ha)
  | tod =>
    cases h
    rcases s.todTick_cases with ⟨hm, h'⟩ | ⟨hm, h'⟩ <;> rw [h']
    · exact .todMatch s hm
    · exact .todNoMatch s hm
  | _ => cases h; constructor

end Sys2Proof.Machine
end

