-- ==== Sys2Proof/Laws/PerInstr.lean ====
section
/-! SUPPORT. Family OpcodeRow: the canonical word of an operation is covered by the row of spec/opcode_table.json that bears
its mnemonic. One lemma per constructor. -/

namespace Sys2Proof.Laws

/-- The encoded word is one of the words of the operation's own row. -/
def OpcodeRow.Statement (i : Instr) : Prop :=
  i.wellFormed = true → ∃ r ∈ opcodeRows, r.mnemonic = i.mnemonic ∧ r.covers (encode i) = true

theorem OpcodeRow.rPra : OpcodeRow.Statement .rPra := fun _ =>
  ⟨⟨"R_PRA", 0x0000, 0xFF00⟩, by decide, rfl, by decide⟩

theorem OpcodeRow.rPrb : OpcodeRow.Statement .rPrb := fun _ =>
  ⟨⟨"R_PRB", 0x0100, 0xFF00⟩, by decide, rfl, by decide⟩

theorem OpcodeRow.rDdra : OpcodeRow.Statement .rDdra := fun _ =>
  ⟨⟨"R_DDRA", 0x0200, 0xFF00⟩, by decide, rfl, by decide⟩

theorem OpcodeRow.rDdrb : OpcodeRow.Statement .rDdrb := fun _ =>
  ⟨⟨"R_DDRB", 0x0300, 0xFF00⟩, by decide, rfl, by decide⟩

theorem OpcodeRow.rTalo : OpcodeRow.Statement .rTalo := fun _ =>
  ⟨⟨"R_TALO", 0x0400, 0xFF00⟩, by decide, rfl, by decide⟩

theorem OpcodeRow.rTahi : OpcodeRow.Statement .rTahi := fun _ =>
  ⟨⟨"R_TAHI", 0x0500, 0xFF00⟩, by decide, rfl, by decide⟩

theorem OpcodeRow.rTblo : OpcodeRow.Statement .rTblo := fun _ =>
  ⟨⟨"R_TBLO", 0x0600, 0xFF00⟩, by decide, rfl, by decide⟩

theorem OpcodeRow.rTbhi : OpcodeRow.Statement .rTbhi := fun _ =>
  ⟨⟨"R_TBHI", 0x0700, 0xFF00⟩, by decide, rfl, by decide⟩

theorem OpcodeRow.rTod10 : OpcodeRow.Statement .rTod10 := fun _ =>
  ⟨⟨"R_TOD10", 0x0800, 0xFF00⟩, by decide, rfl, by decide⟩

theorem OpcodeRow.rTodsec : OpcodeRow.Statement .rTodsec := fun _ =>
  ⟨⟨"R_TODSEC", 0x0900, 0xFF00⟩, by decide, rfl, by decide⟩

theorem OpcodeRow.rTodmin : OpcodeRow.Statement .rTodmin := fun _ =>
  ⟨⟨"R_TODMIN", 0x0A00, 0xFF00⟩, by decide, rfl, by decide⟩

theorem OpcodeRow.rTodhr : OpcodeRow.Statement .rTodhr := fun _ =>
  ⟨⟨"R_TODHR", 0x0B00, 0xFF00⟩, by decide, rfl, by decide⟩

theorem OpcodeRow.rSdr : OpcodeRow.Statement .rSdr := fun _ =>
  ⟨⟨"R_SDR", 0x0C00, 0xFF00⟩, by decide, rfl, by decide⟩

theorem OpcodeRow.rIcr : OpcodeRow.Statement .rIcr := fun _ =>
  ⟨⟨"R_ICR", 0x0D00, 0xFF00⟩, by decide, rfl, by decide⟩

theorem OpcodeRow.rCra : OpcodeRow.Statement .rCra := fun _ =>
  ⟨⟨"R_CRA", 0x0E00, 0xFF00⟩, by decide, rfl, by decide⟩

theorem OpcodeRow.rCrb : OpcodeRow.Statement .rCrb := fun _ =>
  ⟨⟨"R_CRB", 0x0F00, 0xFF00⟩, by decide, rfl, by decide⟩

theorem OpcodeRow.wPra (v : Byte) : OpcodeRow.Statement (.wPra v) := fun _ =>
  ⟨⟨"W_PRA", 0x1000, 0xFF00⟩, by decide, rfl, by revert v; decide⟩

theorem OpcodeRow.wPrb (v : Byte) : OpcodeRow.Statement (.wPrb v) := fun _ =>
  ⟨⟨"W_PRB", 0x1100, 0xFF00⟩, by decide, rfl, by revert v; decide⟩

theorem OpcodeRow.wDdra (v : Byte) : OpcodeRow.Statement (.wDdra v) := fun _ =>
  ⟨⟨"W_DDRA", 0x1200, 0xFF00⟩, by decide, rfl, by revert v; decide⟩

theorem OpcodeRow.wDdrb (v : Byte) : OpcodeRow.Statement (.wDdrb v) := fun _ =>
  ⟨⟨"W_DDRB", 0x1300, 0xFF00⟩, by decide, rfl, by revert v; decide⟩

theorem OpcodeRow.wTalo (v : Byte) : OpcodeRow.Statement (.wTalo v) := fun _ =>
  ⟨⟨"W_TALO", 0x1400, 0xFF00⟩, by decide, rfl, by revert v; decide⟩

theorem OpcodeRow.wTahi (v : Byte) : OpcodeRow.Statement (.wTahi v) := fun _ =>
  ⟨⟨"W_TAHI", 0x1500, 0xFF00⟩, by decide, rfl, by revert v; decide⟩

theorem OpcodeRow.wTblo (v : Byte) : OpcodeRow.Statement (.wTblo v) := fun _ =>
  ⟨⟨"W_TBLO", 0x1600, 0xFF00⟩, by decide, rfl, by revert v; decide⟩

theorem OpcodeRow.wTbhi (v : Byte) : OpcodeRow.Statement (.wTbhi v) := fun _ =>
  ⟨⟨"W_TBHI", 0x1700, 0xFF00⟩, by decide, rfl, by revert v; decide⟩

theorem OpcodeRow.wTod10 (v : Byte) : OpcodeRow.Statement (.wTod10 v) := fun _ =>
  ⟨⟨"W_TOD10", 0x1800, 0xFF00⟩, by decide, rfl, by revert v; decide⟩

theorem OpcodeRow.wTodsec (v : Byte) : OpcodeRow.Statement (.wTodsec v) := fun _ =>
  ⟨⟨"W_TODSEC", 0x1900, 0xFF00⟩, by decide, rfl, by revert v; decide⟩

theorem OpcodeRow.wTodmin (v : Byte) : OpcodeRow.Statement (.wTodmin v) := fun _ =>
  ⟨⟨"W_TODMIN", 0x1A00, 0xFF00⟩, by decide, rfl, by revert v; decide⟩

theorem OpcodeRow.wTodhr (v : Byte) : OpcodeRow.Statement (.wTodhr v) := fun _ =>
  ⟨⟨"W_TODHR", 0x1B00, 0xFF00⟩, by decide, rfl, by revert v; decide⟩

theorem OpcodeRow.wSdr (v : Byte) : OpcodeRow.Statement (.wSdr v) := fun _ =>
  ⟨⟨"W_SDR", 0x1C00, 0xFF00⟩, by decide, rfl, by revert v; decide⟩

theorem OpcodeRow.wIcr (v : Byte) : OpcodeRow.Statement (.wIcr v) := fun _ =>
  ⟨⟨"W_ICR", 0x1D00, 0xFF00⟩, by decide, rfl, by revert v; decide⟩

theorem OpcodeRow.wCra (v : Byte) : OpcodeRow.Statement (.wCra v) := fun _ =>
  ⟨⟨"W_CRA", 0x1E00, 0xFF00⟩, by decide, rfl, by revert v; decide⟩

theorem OpcodeRow.wCrb (v : Byte) : OpcodeRow.Statement (.wCrb v) := fun _ =>
  ⟨⟨"W_CRB", 0x1F00, 0xFF00⟩, by decide, rfl, by revert v; decide⟩

theorem OpcodeRow.clk : OpcodeRow.Statement .clk := fun _ =>
  ⟨⟨"CLK", 0x2000, 0xFFFF⟩, by decide, rfl, by decide⟩

theorem OpcodeRow.tod : OpcodeRow.Statement .tod := fun _ =>
  ⟨⟨"TOD", 0x3000, 0xFFFF⟩, by decide, rfl, by decide⟩

theorem OpcodeRow.rst : OpcodeRow.Statement .rst := fun _ =>
  ⟨⟨"RST", 0x4000, 0xFFFF⟩, by decide, rfl, by decide⟩

theorem OpcodeRow.pin (p : PinSel) (l : Bool) : OpcodeRow.Statement (.pin p l) := fun _ =>
  ⟨⟨"PIN", 0x5000, 0xFEFE⟩, by decide, rfl, by cases p <;> cases l <;> decide⟩

theorem OpcodeRow.portin (p : PortSel) (v : Byte) : OpcodeRow.Statement (.portin p v) := fun _ =>
  ⟨⟨"PORTIN", 0x6000, 0xFE00⟩, by decide, rfl, by revert v; cases p <;> decide⟩

theorem OpcodeRow.key (i : BitVec 4) (m : Byte) : OpcodeRow.Statement (.key i m) := fun h => by
  refine ⟨⟨"KEY", 0x7000, 0xF800⟩, by decide, rfl, ?_⟩
  have hi : i.toNat ≤ 7 := by simpa [Instr.wellFormed] using h
  have hk : ∀ i : BitVec 4, i.toNat ≤ 7 → ∀ m : Byte, (opWord 0x7 i m).toNat / 2048 = 14 := by
    intro i hi m
    rw [opWord_toNat]
    have := m.isLt
    have h7 : (0x7 : BitVec 4).toNat = 7 := rfl
    omega
  have hb : ∀ w : OpWord, w.toNat / 2048 = 14 → (w &&& 0xF800 == 0x7000) = true := by
    intro w hw
    have h1 : w.extractLsb' 11 5 = 14 := by
      apply BitVec.eq_of_toNat_eq
      rw [BitVec.extractLsb'_toNat, Nat.shiftRight_eq_div_pow]
      have h14 : (14 : BitVec 5).toNat = 14 := rfl
      omega
    have h2 : w &&& 0xF800 = (w.extractLsb' 11 5) ++ (0 : BitVec 11) := by
      apply BitVec.eq_of_getLsbD_eq
      intro n hn
      simp only [BitVec.getLsbD_and, BitVec.getLsbD_append, BitVec.getLsbD_extractLsb']
      interval_cases n <;> simp
    rw [h2, h1]
    rfl
  exact hb _ (hk i hi m)

theorem OpcodeRow.joy (p : PortSel) (m : Byte) : OpcodeRow.Statement (.joy p m) := fun _ =>
  ⟨⟨"JOY", 0x8000, 0xFE00⟩, by decide, rfl, by revert m; cases p <;> decide⟩

end Sys2Proof.Laws
end

