-- ==== Sys2Proof/Tests/Slice0.lean ====
section
/-! SUPPORT. The model's own tests: the smoke test of `Instr.wellFormed`, decoding of words written out from
spec/30_encoding.md rules R81 and R82, one step of each operation on a small state with the result that
spec/95_test_vectors.md gives (`V<n>`, `S<n>`, `P<n>`) or that the example of the operation's own rule gives, and for every
statement with hypotheses a concrete state and operands that meet them (`witness_…`). -/

namespace Sys2Proof.Tests

open Sys2Proof Sys2Proof.Machine

/-! ### Small states and views of an outcome -/

/-- What `f` sees in the next state. -/
def seen {α : Type} (o : Out) (f : State → α) : Option α :=
  match o with
  | .next t => some (f t)
  | .fault _ | .refused _ => none

/-- The fault an outcome stops with. -/
def faultOf (o : Out) : Option Fault :=
  match o with
  | .fault f => some f
  | .next _ | .refused _ => none

/-- The refusal an outcome stops with. -/
def refusalOf (o : Out) : Option Refusal :=
  match o with
  | .refused r => some r
  | .next _ | .fault _ => none

/-- The other chip. -/
def chip2 : State := { State.reset with cfg := { configStandard with chipId := .cia2 } }

/-- Timer A running continuously on the system clock. -/
def runA (value latch : Word16) : State :=
  { State.reset with ta := { State.reset.ta with value := value, latch := latch, enabled := true } }

/-- Timer B as well, from the given source. -/
def runAB (va la vb lb : Word16) (input : TimerBInput) : State :=
  { runA va la with tb := { State.reset.tb with value := vb, latch := lb, enabled := true, input := input } }

/-- The clock at a reading. -/
def clockAt (h m sec t : Nat) (pm run : Bool) : State :=
  { State.reset with clock := { tenths := t, seconds := sec, minutes := m, hours := h, pm := pm, enabled := run }
                     alarm := { tenths := 0, seconds := 0, minutes := 30, hours := 5, pm := false } }

/-- The events and the mask. -/
def icrAt (event mask : Byte) : State := { State.reset with icr := { event := event, mask := mask } }

/-- The output asserted on `Cia1`, with the IRQ line to match. -/
def asserted (s : State) : State := { s with intTriggered := true, irq := { sources := [.chip .cia1] } }

/-- A decode with a hole and a doubled entry. -/
def oddDecode : CrbDecode :=
  { code00 := some .systemClock, code01 := some .external, code10 := some .external, code11 := none }

/-- A chip with that decode. -/
def odd : State := { State.reset with cfg := { configStandard with crbInputDecode := oddDecode } }

/-- A chip with a `TOD_COERCE`. -/
def coercing : State := { State.reset with cfg := { configStandard with todIllegal := .coerced 0 } }

/-- Time-of-day writes reach the alarm. -/
def alarmMode (s : State) : State := { s with todSetAlarm := true }

/-- The driver has these words to issue. -/
def driven (ops : List OpWord) : State := { State.reset with pending := ops }

/-! ### Well-formedness -/

theorem test_wellFormed_refuses_key_line_8 : (Instr.key 8 0x00).wellFormed = false := by decide
theorem test_wellFormed_refuses_key_line_15 : (Instr.key 15 0xFF).wellFormed = false := by decide
theorem test_wellFormed_admits_key_line_7 : (Instr.key 7 0xFF).wellFormed = true := by decide

/-! ### Decoding: class (4 bits), sel (4 bits), data (8 bits), from the tables of rules R81 and R82 -/

theorem test_decode_port_reads :
    decode 0b0000000000000000 = .ok .rPra ∧ decode 0b0000000100000000 = .ok .rPrb ∧
    decode 0b0000001000000000 = .ok .rDdra ∧ decode 0b0000001100000000 = .ok .rDdrb := by decide

theorem test_decode_timer_reads :
    decode 0b0000010000000000 = .ok .rTalo ∧ decode 0b0000010100000000 = .ok .rTahi ∧
    decode 0b0000011000000000 = .ok .rTblo ∧ decode 0b0000011100000000 = .ok .rTbhi ∧
    decode 0b0000111000000000 = .ok .rCra ∧ decode 0b0000111100000000 = .ok .rCrb := by decide

theorem test_decode_tod_sdr_icr_reads :
    decode 0b0000100000000000 = .ok .rTod10 ∧ decode 0b0000100100000000 = .ok .rTodsec ∧
    decode 0b0000101000000000 = .ok .rTodmin ∧ decode 0b0000101100000000 = .ok .rTodhr ∧
    decode 0b0000110000000000 = .ok .rSdr ∧ decode 0b0000110100000000 = .ok .rIcr := by decide

/-- V87: the data field of a read is ignored, and the canonical word has zeros there. -/
theorem test_decode_read_ignores_data : decode 0x0D55 = .ok .rIcr ∧ encode .rIcr = 0x0D00 := by decide

theorem test_decode_port_writes :
    decode 0b0001000010100101 = .ok (.wPra 0xA5) ∧ decode 0b0001000100111100 = .ok (.wPrb 0x3C) ∧
    decode 0b0001001011110000 = .ok (.wDdra 0xF0) ∧ decode 0b0001001100001111 = .ok (.wDdrb 0x0F) := by decide

theorem test_decode_timer_writes :
    decode 0b0001010000110100 = .ok (.wTalo 0x34) ∧ decode 0b0001010100010010 = .ok (.wTahi 0x12) ∧
    decode 0b0001011001010110 = .ok (.wTblo 0x56) ∧ decode 0b0001011101111000 = .ok (.wTbhi 0x78) ∧
    decode 0b0001111000001001 = .ok (.wCra 0x09) ∧ decode 0b0001111101001001 = .ok (.wCrb 0x49) := by decide

theorem test_decode_tod_sdr_icr_writes :
    decode 0b0001100000001001 = .ok (.wTod10 0x09) ∧ decode 0b0001100101011001 = .ok (.wTodsec 0x59) ∧
    decode 0b0001101000110011 = .ok (.wTodmin 0x33) ∧ decode 0b0001101110010010 = .ok (.wTodhr 0x92) ∧
    decode 0b0001110010100101 = .ok (.wSdr 0xA5) ∧ decode 0b0001110110000011 = .ok (.wIcr 0x83) := by decide

theorem test_decode_control_operations :
    decode 0b0010000000000000 = .ok .clk ∧ decode 0b0011000000000000 = .ok .tod ∧
    decode 0b0100000000000000 = .ok .rst := by decide

theorem test_decode_environment_operations :
    decode 0b0101000000000001 = .ok (.pin .cnt true) ∧ decode 0b0101000100000000 = .ok (.pin .flag false) ∧
    decode 0b0110000001111111 = .ok (.portin .a 0x7F) ∧ decode 0b0110000110000000 = .ok (.portin .b 0x80) ∧
    decode 0b0111001110000000 = .ok (.key 3 0x80) ∧ decode 0b0111011100000001 = .ok (.key 7 0x01) ∧
    decode 0b1000000011101111 = .ok (.joy .a 0xEF) ∧ decode 0b1000000111111011 = .ok (.joy .b 0xFB) := by decide

/-- V86, with each word's reason. -/
theorem test_decode_rejects :
    decode 0x9000 = .error .reservedClass ∧ decode 0xF123 = .error .reservedClass ∧
    decode 0x2001 = .error .ctlOperand ∧ decode 0x3100 = .error .ctlOperand ∧ decode 0x4001 = .error .ctlOperand ∧
    decode 0x5200 = .error .pinOperand ∧ decode 0x5002 = .error .pinOperand ∧
    decode 0x6200 = .error .portSelector ∧ decode 0x7800 = .error .keyLine ∧
    decode 0x8200 = .error .joySelector := by decide

theorem test_decodeTableWord_at_its_width : decodeTableWord 16 0x1F49 = some (.wCrb 0x49) := by decide
theorem test_decodeTableWord_clears_high_bits : decodeTableWord 16 0x70000D00 = some .rIcr := by decide

/-! ### Pins, ports, keyboard, joysticks (V1 to V22) -/

/-- V1 and V2. -/
theorem test_pin_rising_then_no_edge :
    seen (exec (.pin .cnt true) { State.reset with cnt := { level := false, prevLevel := false } }) (·.cnt) =
      some { level := true, prevLevel := false } ∧
    seen (exec (.pin .cnt true) { State.reset with cnt := { level := true, prevLevel := false } }) (·.cnt) =
      some { level := true, prevLevel := true } := by decide

/-- V3, on FLAG; CNT keeps its record. -/
theorem test_pin_falling :
    seen (exec (.pin .flag false) State.reset) (fun t => (t.flag.isFalling, t.flag.isRising, t.cnt.isFalling)) =
      some (true, false, false) := by decide

/-- V10, but for `R PRB` on the scanning chip: there the driven byte 0x00 takes the scan's shortcut (rules R121, R125), and
spec/95_test_vectors.md section 2 says that a rule wins over a vector (log entry 13). -/
theorem test_ports_after_reset :
    seen (exec .rPra State.reset) (·.result) = some (some 0xFF) ∧
    seen (exec .rPrb chip2) (·.result) = some (some 0xFF) ∧
    seen (exec .rPrb State.reset) (·.result) = some (some 0x00) ∧
    seen (exec .rDdra State.reset) (·.result) = some (some 0x00) ∧
    seen (exec .rDdrb State.reset) (·.result) = some (some 0x00) := by decide

/-- V11 and V13. -/
theorem test_ports_mix_driven_and_external :
    seen (exec .rPrb { chip2 with pb := { value := 0xA5, direction := 0x0F, external := 0xFF } }) (·.result) =
      some (some 0xF5) ∧
    seen (exec .rPra { chip2 with pa := { value := 0x5A, direction := 0xF0, external := 0xC3 } }) (·.result) =
      some (some 0x53) := by decide

/-- V12, V14 and the writes of rules R116, R117. -/
theorem test_port_writes :
    seen (exec (.portin .a 0x7F) chip2) (fun t => (t.pa.external, t.pb.external)) = some (0x7F, 0xFF) ∧
    seen (exec (.portin .b 0x7F) chip2) (fun t => (t.pa.external, t.pb.external)) = some (0xFF, 0x7F) ∧
    seen (exec (.wDdrb 0x3C) chip2) (fun t => (t.pb, t.pa.direction)) = some (⟨0x00, 0x3C, 0xFF⟩, 0x00) ∧
    seen (exec (.wDdra 0x3C) chip2) (fun t => (t.pa, t.pb.direction)) = some (⟨0x00, 0x3C, 0xFF⟩, 0x00) ∧
    seen (exec (.wPra 0xA5) chip2) (·.pa) = some ⟨0xA5, 0x00, 0xFF⟩ ∧
    seen (exec (.wPrb 0xA5) chip2) (·.pb) = some ⟨0xA5, 0x00, 0xFF⟩ := by decide

/-- V15 and V16. -/
theorem test_joystick_on_port_a :
    seen (exec (.joy .a 0xEF) State.reset) (fun t => (t.joyA, t.joyB)) = some (0xEF, 0xFF) ∧
    seen (exec .rPra { State.reset with joyA := 0xEF }) (·.result) = some (some 0xEF) ∧
    seen (exec .rPra { chip2 with joyA := 0xEF }) (·.result) = some (some 0xFF) ∧
    seen (exec .rPra { State.reset with joyA := 0xFB, pa := ⟨0xFE, 0xFF, 0xFF⟩ }) (·.result) = some (some 0xFA) := by
  decide

/-- The keys of V17: line 0 has 0x02 and line 3 has 0x80. -/
def keysV17 : Vector Byte 8 := #v[0x02, 0, 0, 0x80, 0, 0, 0, 0]

/-- V17 to V20, V22 (the scan is of the driven byte, whatever the direction) and S6. -/
theorem test_keyboard_scan :
    [(0xF6 : Byte), 0xFF, 0x00, 0xFE, 0xF7].map (fun c => documentedScan c keysV17) = [0x7D, 0xFF, 0x00, 0xFD, 0x7F] ∧
    seen (exec .rPrb { State.reset with keyrow := keysV17, joyB := 0xEF, pa := ⟨0xFE, 0x00, 0xFF⟩ }) (·.result) =
      some (some 0xED) := by decide

/-- V21: no coupling on `Cia2`. -/
theorem test_no_coupling_on_cia2 :
    seen (exec .rPrb { chip2 with keyrow := keysV17, joyB := 0xEF, pa := ⟨0xFE, 0xFF, 0xFF⟩ }) (·.result) =
      some (some 0xFF) := by decide

theorem test_key_sets_one_line :
    seen (exec (.key 3 0x80) State.reset) (·.keyrow) = some #v[0, 0, 0, 0x80, 0, 0, 0, 0] ∧
    refusalOf (exec (.key 8 0x80) State.reset) = some (.notAnOperation .keyLine) := by decide

/-! ### Timers (V30 to V43, S1, P2) -/

/-- V30 and S1. -/
theorem test_latch_writes_when_stopped :
    seen (exec (.wTalo 0x34) State.reset) (fun t => (t.ta.value, t.ta.latch)) = some (0xFF34, 0xFF34) ∧
    seen (exec (.wTbhi 0x01) { State.reset with tb := { State.reset.tb with value := 0xFF00, latch := 0xFF00 } })
      (fun t => (t.tb.value, t.tb.latch, t.ta.value)) = some (0x0100, 0x0100, 0xFFFF) := by decide

/-- V34, and the same for the high byte. -/
theorem test_latch_writes_when_running :
    seen (exec (.wTalo 0x09) (runA 3 5)) (fun t => (t.ta.value, t.ta.latch)) = some (3, 9) ∧
    seen (exec (.wTahi 0x01) (runA 3 5)) (fun t => (t.ta.value, t.ta.latch)) = some (3, 0x0105) ∧
    seen (exec (.wTblo 0x09) (runAB 3 5 7 8 .timerA)) (fun t => (t.tb.value, t.tb.latch, t.ta.latch)) =
      some (7, 9, 5) := by decide

theorem test_counter_reads_are_live :
    seen (exec .rTalo (runA 0x1234 0x5678)) (·.result) = some (some 0x34) ∧
    seen (exec .rTahi (runA 0x1234 0x5678)) (·.result) = some (some 0x12) ∧
    seen (exec .rTblo (runAB 0 0 0xABCD 0 .timerA)) (·.result) = some (some 0xCD) ∧
    seen (exec .rTbhi (runAB 0 0 0xABCD 0 .timerA)) (·.result) = some (some 0xAB) := by decide

/-- V31: latch 0 underflows in every clock. -/
theorem test_clk_latch_zero :
    seen (exec .clk (runA 0 0)) (fun t => (t.ta.value, t.ta.enabled, t.icr.event)) = some (0, true, 0x01) := by decide

/-- V32, third and fourth clock. -/
theorem test_clk_one_shot :
    seen (exec .clk { runA 1 3 with ta := { (runA 1 3).ta with mode := .oneShot } })
      (fun t => (t.ta.value, t.ta.enabled, t.icr.event)) = some (0, true, 0x00) ∧
    seen (exec .clk { runA 0 3 with ta := { (runA 0 3).ta with mode := .oneShot } })
      (fun t => (t.ta.value, t.ta.enabled, t.icr.event)) = some (3, false, 0x01) := by decide

/-- V35: the strobe reloads a running timer. -/
theorem test_cra_strobe :
    seen (exec (.wCra 0x11) (runA 3 9)) (fun t => (t.ta.value, t.ta.enabled, craByte t.ta)) = some (9, true, 0x01) := by
  decide

/-- V39, both halves. -/
theorem test_cra_reads_back :
    seen (exec (.wCra 0xD9) State.reset) (fun t => (seen (exec .rCra t) (·.result))) = some (some (some 0x09)) ∧
    seen (exec (.wCra 0xFF) State.reset) (fun t => (seen (exec .rCra t) (·.result))) = some (some (some 0x2F)) := by
  decide

/-- V40. -/
theorem test_crb_reads_back :
    seen (exec (.wCrb 0xF1) State.reset) (fun t => (t.tb.input, t.todSetAlarm, seen (exec .rCrb t) (·.result))) =
      some (.timerAWithCnt, true, some (some 0xE1)) ∧
    seen (exec (.wCrb 0x21) State.reset) (fun t => (t.tb.input, t.todSetAlarm, seen (exec .rCrb t) (·.result))) =
      some (.external, false, some (some 0x21)) := by decide

/-- Rule R272: a substituted decode may reject the selector. -/
theorem test_crb_malformed_selector : faultOf (exec (.wCrb 0x60) odd) = some .malformedInputSelector := by decide

/-- P2, clocks 3 and 6: the chained timer counts in the clock of timer A's underflow. -/
theorem test_clk_chained :
    seen (exec .clk (runAB 0 2 1 1 .timerA)) (fun t => (t.ta.value, t.tb.value, t.icr.event)) = some (2, 0, 0x01) ∧
    seen (exec .clk (runAB 0 2 0 1 .timerA)) (fun t => (t.ta.value, t.tb.value, t.icr.event)) = some (2, 1, 0x03) := by
  decide

/-- V42: the gated chain counts only while CNT is high. -/
theorem test_clk_chained_with_cnt :
    seen (exec .clk { runAB 0 0 2 2 .timerAWithCnt with cnt := ⟨false, true⟩ }) (·.tb.value) = some 2 ∧
    seen (exec .clk { runAB 0 0 2 2 .timerAWithCnt with cnt := ⟨true, true⟩ }) (·.tb.value) = some 1 := by decide

/-- V41 and V43: CNT counts rising edges only; a stopped timer A gives no pulse. -/
theorem test_clk_sources :
    seen (exec .clk { runAB 5 5 1 1 .external with cnt := ⟨true, false⟩ }) (·.tb.value) = some 0 ∧
    seen (exec .clk { runAB 5 5 1 1 .external with cnt := ⟨true, true⟩ }) (·.tb.value) = some 1 ∧
    seen (exec .clk { runAB 0 2 1 1 .timerA with ta := State.reset.ta }) (fun t => (t.tb.value, t.icr.event)) =
      some (1, 0x00) := by decide

/-- V88: three events in one clock and one assertion. -/
theorem test_clk_all_events :
    seen (exec .clk { runAB 0 5 0 5 .systemClock with flag := ⟨false, true⟩, icr := ⟨0x00, 0x13⟩ })
      (fun t => (t.icr.event, t.intTriggered, t.irq.sources, t.nmi.sources)) =
      some (0x13, true, [.chip .cia1], []) := by decide

/-! ### The ICR (V50 to V59, S3, S4) -/

/-- S3. -/
theorem test_icr_mask_writes :
    seen (exec (.wIcr 0x83) (icrAt 0 0x10)) (·.icr.mask) = some 0x13 ∧
    seen (exec (.wIcr 0x03) (icrAt 0 0x13)) (·.icr.mask) = some 0x10 ∧
    seen (exec (.wIcr 0xFF) (icrAt 0 0x10)) (·.icr.mask) = some 0x7F ∧
    seen (exec (.wIcr 0x80) (icrAt 0 0x10)) (·.icr.mask) = some 0x10 := by decide

/-- V54 and V55. -/
theorem test_icr_write_asserts_and_never_releases :
    seen (exec (.wIcr 0x81) (icrAt 0x01 0x02)) (fun t => (t.intTriggered, t.irq.sources)) = some (true, [.chip .cia1]) ∧
    seen (exec (.wIcr 0x01) (asserted (icrAt 0x01 0x03))) (fun t => (t.icr.ir, t.intTriggered, t.line.active)) =
      some (false, true, true) := by decide

/-- On `Cia2` the line is NMI (rule R250). -/
theorem test_icr_write_on_cia2 :
    seen (exec (.wIcr 0x81) { chip2 with icr := ⟨0x01, 0x02⟩ }) (fun t => (t.irq.sources, t.nmi.sources)) =
      some ([], [.chip .cia2]) := by decide

/-- S4 and V59. -/
theorem test_icr_read :
    seen (exec .rIcr (asserted (icrAt 0x03 0x02))) (fun t => (t.result, t.icr.event, t.icr.mask, t.intTriggered, t.irq.sources)) =
      some (some 0x83, 0x00, 0x02, false, []) ∧
    seen (exec .rIcr (icrAt 0x17 0x04)) (·.result) = some (some 0x97) ∧
    seen (exec .rIcr (icrAt 0x17 0x08)) (·.result) = some (some 0x17) := by decide

/-! ### The time of day (V60 to V75) -/

/-- V60. -/
theorem test_bcd :
    [0, 9, 10, 12, 59].map toBcd = [0x00, 0x09, 0x10, 0x12, 0x59] ∧ fromBcd 0x45 = 45 ∧ isBcd 0x5A = false ∧
    isBcd 0xA0 = false := by decide

/-- V61 to V63. -/
theorem test_tod_carries :
    seen (exec .tod (clockAt 1 0 0 9 false true)) (·.clock) = some ⟨0, 1, 0, 1, false, true⟩ ∧
    seen (exec .tod (clockAt 1 9 59 9 false true)) (·.clock) = some ⟨0, 0, 10, 1, false, true⟩ ∧
    seen (exec .tod (clockAt 11 59 59 9 false true)) (·.clock) = some ⟨0, 0, 0, 12, false, true⟩ := by decide

/-- V64 and V65. -/
theorem test_tod_hours :
    seen (exec .tod (clockAt 12 59 59 9 true true)) (·.clock) = some ⟨0, 0, 0, 1, false, true⟩ ∧
    seen (exec .tod (clockAt 9 59 59 9 true true)) (fun t => seen (exec .rTodhr t) (·.result)) =
      some (some (some 0x90)) := by decide

/-- S5, the fifth tick, and V75, the frozen clock. -/
theorem test_tod_alarm :
    seen (exec .tod { clockAt 1 0 0 4 false true with alarm := ⟨5, 0, 0, 1, false⟩ }) (fun t => (t.icr.event, t.intTriggered)) =
      some (0x04, false) ∧
    seen (exec .tod { clockAt 1 0 0 0 true false with alarm := ⟨0, 0, 0, 1, true⟩, icr := ⟨0x00, 0x04⟩ })
      (fun t => (t.icr.event, t.intTriggered)) = some (0x04, true) := by decide

/-- V67: the read freezes the clock. -/
theorem test_tod10_read : seen (exec .rTod10 (clockAt 1 0 0 7 false true)) (fun t => (t.result, t.clock.enabled)) =
    some (some 0x07, false) := by decide

/-- Rules R204 to R206 on 3:15:42.7 PM. -/
theorem test_tod_reads :
    seen (exec .rTodsec (clockAt 3 15 42 7 true true)) (fun t => (t.result, t.clock.enabled)) = some (some 0x42, true) ∧
    seen (exec .rTodmin (alarmMode (clockAt 3 15 42 7 true true))) (·.result) = some (some 0x15) ∧
    seen (exec .rTodhr (clockAt 3 15 42 7 true true)) (·.result) = some (some 0x83) := by decide

/-- V68 and V70: the write resumes the clock in clock mode only. -/
theorem test_tod10_write :
    seen (exec (.wTod10 0x07) (clockAt 1 0 0 3 false false)) (fun t => (t.clock.tenths, t.clock.enabled)) = some (7, true) ∧
    seen (exec (.wTod10 0x05) (alarmMode (clockAt 1 0 0 3 false false)))
      (fun t => (t.clock.tenths, t.clock.enabled, t.alarm.tenths)) = some (3, false, 5) := by decide

/-- V72 and V74. -/
theorem test_tod_second_and_minute_writes :
    seen (exec (.wTodsec 0x59) (clockAt 1 0 0 3 false true)) (fun t => (t.clock.seconds, t.clock.enabled)) = some (59, true) ∧
    seen (exec (.wTodmin 0x33) (alarmMode (clockAt 3 15 42 7 false true))) (fun t => (t.alarm.minutes, t.clock.minutes)) =
      some (33, 15) := by decide

/-- V69 and V74. -/
theorem test_tod_hour_writes :
    seen (exec (.wTodhr 0x02) (alarmMode (clockAt 1 0 0 0 false true)))
      (fun t => (t.alarm.hours, t.alarm.pm, t.clock.hours, t.clock.enabled)) = some (2, false, 1, false) ∧
    [(0x92 : Byte), 0x10, 0x89, 0x12].map (fun v => seen (exec (.wTodhr v) State.reset) (fun t => (t.clock.hours, t.clock.pm))) =
      [some (12, true), some (10, false), some (9, true), some (12, false)] := by decide

/-- V73. -/
theorem test_tod_illegal_bytes :
    [Instr.wTod10 0x0A, .wTod10 0x10, .wTodsec 0x60, .wTodsec 0x5A, .wTodmin 0x7F, .wTodhr 0x00, .wTodhr 0x13, .wTodhr 0x80,
      .wTodhr 0x0A, .wTodhr 0x1F, .wTodhr 0x20, .wTodhr 0x41].all
      (fun i => refusalOf (exec i State.reset) == some .todIllegalValue) = true := by decide

/-! ### Chip level and reset (V80 to V85, S7) -/

/-- V80. -/
theorem test_sdr :
    seen (exec (.wSdr 0xA5) (runA 3 5)) id = some (runA 3 5) ∧
    seen (exec .rSdr State.reset) (·.result) = some (some 0x00) := by decide

/-- V81, V82, V84. -/
theorem test_rst :
    seen (exec .rst State.reset) id = some State.reset ∧
    seen (exec .rst (asserted { clockAt 3 15 42 7 true true with icr := ⟨0x03, 0x03⟩ }))
      (fun t => (t.clock, t.icr, t.intTriggered, t.irq.sources)) = some (⟨7, 42, 15, 3, true, true⟩, ⟨0, 0⟩, false, []) := by
  decide

/-- V85: after reset a clock changes nothing. -/
theorem test_clk_after_reset : seen (exec .clk State.reset) id = some State.reset := by decide

theorem test_step_runs_the_first_word :
    seen (step (driven [0x1481, 0x2000])) (fun t => (t.ta.latch, t.pending)) = some (0xFF81, [0x2000]) ∧
    refusalOf (step (driven [0x9000])) = some (.notAnOperation .reservedClass) := by decide

/-! ### Witnesses: concrete inputs that meet the hypotheses of each statement that has any -/

theorem inRange_clockAt_end : (clockAt 12 59 59 9 true true).clock.InRange := ⟨by decide, by decide, by decide, by decide, by decide⟩
theorem inRange_clockAt_start : (clockAt 1 0 0 0 false true).clock.InRange := ⟨by decide, by decide, by decide, by decide, by decide⟩
theorem inRange_alarm : (clockAt 1 0 0 0 false true).alarm.InRange := ⟨by decide, by decide, by decide, by decide, by decide⟩

/-- A state that meets the invariants, with the output asserted and the clock at the end of its range. -/
theorem inv_asserted : (asserted { clockAt 12 59 59 9 true true with icr := ⟨0x17, 0x7F⟩ }).Inv :=
  ⟨by decide, by decide, by decide, by decide, inRange_clockAt_end, inRange_alarm, by decide, by decide⟩

theorem witness_DecodeOfEncodeIsIdentity : (Instr.key 7 0xFF).wellFormed = true := by decide

theorem witness_EncodeOfDecodeIsCanonical :
    (decode 0x0D55 = .ok .rIcr ∧ (0x0D55 : OpWord).toNat / 4096 = 0) ∧
    (decode 0x1401 = .ok (.wTalo 0x01) ∧ (0x1401 : OpWord).toNat / 4096 ≠ 0) := by decide

theorem witness_DecoderAgreesWithOpcodeTable :
    decode 0x77FF = .ok (.key 7 0xFF) ∧ decode 0x7800 = .error .keyLine := by decide

theorem witness_StepRunsTheDecodedOperation :
    (driven [0x2000, 0x0D00]).pending = 0x2000 :: [0x0D00] ∧ decode 0x2000 = .ok .clk := by decide

theorem witness_StepWithoutAnOperation :
    ((driven [0x8200]).pending = 0x8200 :: [] ∧ decode 0x8200 = .error .joySelector) ∧ State.reset.pending = [] := by decide

theorem witness_PlacedWordRunsNext : decodeTableWord 16 0x1F49 = some (.wCrb 0x49) := by decide

theorem witness_ConstructedChipMeetsTheInvariants : todInitStandard.InRange :=
  ⟨⟨by decide, by decide, by decide, by decide, by decide⟩, ⟨by decide, by decide, by decide, by decide, by decide⟩⟩

/-- A step that acknowledges. -/
theorem witness_StepKeepsTheInvariants :
    ∃ s t : State, s.Inv ∧ step s = .next t ∧ s.intTriggered = true ∧ t.intTriggered = false :=
  ⟨{ asserted { clockAt 12 59 59 9 true true with icr := ⟨0x17, 0x7F⟩ } with pending := [0x0D00] }, _,
    ⟨by decide, by decide, by decide, by decide, inRange_clockAt_end, inRange_alarm, by decide, by decide⟩, rfl, rfl, rfl⟩

/-- The hypotheses at the last legal bytes under rule R212, and at an illegal one under a `TOD_COERCE`. -/
theorem witness_OperationsAreTotal :
    (∀ c, (crbDecode State.reset.cfg.crbInputDecode c).isSome = true) ∧ State.reset.cfg.todIllegal = .refused ∧
    (Instr.wTodhr 0x92).wellFormed = true ∧
    ((1 ≤ (0x92 : Byte).toNat % 128 ∧ (0x92 : Byte).toNat % 128 ≤ 9) ∨
      (16 ≤ (0x92 : Byte).toNat % 128 ∧ (0x92 : Byte).toNat % 128 ≤ 18)) ∧
    (0x59 : Byte).toNat / 16 ≤ 5 ∧ (0x59 : Byte).toNat % 16 ≤ 9 ∧ (0x09 : Byte).toNat ≤ 9 ∧
    (∀ c, (crbDecode coercing.cfg.crbInputDecode c).isSome = true) ∧ coercing.cfg.todIllegal ≠ .refused := by decide

theorem witness_OnlyTheNamedStopsOccur :
    faultOf (exec (.wCrb 0x60) odd) = some .malformedInputSelector ∧
    refusalOf (exec (.wTod10 0x0A) State.reset) = some .todIllegalValue ∧
    refusalOf (exec (.wTodsec 0x60) State.reset) = some .todIllegalValue ∧
    refusalOf (exec (.wTodmin 0x5A) State.reset) = some .todIllegalValue ∧
    refusalOf (exec (.wTodhr 0x13) State.reset) = some .todIllegalValue := by decide

theorem witness_OperationsLeaveParametersAndDriverAlone : ∃ t, exec .clk (driven [0x2000]) = .next t := ⟨_, rfl⟩

theorem witness_PinsAreWrittenOnlyByPinAndReset :
    (∃ t, exec (.pin .cnt false) State.reset = .next t ∧ t.cnt ≠ State.reset.cnt) ∧
    (∃ t, exec (.pin .flag false) State.reset = .next t ∧ t.flag ≠ State.reset.flag) :=
  ⟨⟨_, rfl, by decide⟩, ⟨_, rfl, by decide⟩⟩

/-- Timer A on CNT, with a rising edge pending. -/
def onCnt : State :=
  { runA 3 3 with ta := { (runA 3 3).ta with input := .external }, cnt := { level := true, prevLevel := false } }

theorem witness_EdgeIsCountedInEveryClock :
    onCnt.ta.enabled = true ∧ onCnt.ta.input = .external ∧ CntRises onCnt ∧ 3 ≤ onCnt.ta.value.toNat :=
  ⟨rfl, rfl, ⟨rfl, rfl⟩, by decide⟩

theorem witness_KeyboardScanShowsPressedKeys : (0xFE : Byte) ≠ 0x00 ∧ (0xFF : Byte) ≠ 0x00 ∧ 7 < 8 := by decide

theorem witness_KeySetsOneMatrixLine : (7 : BitVec 4).toNat ≤ 7 ∧ 7 < (8 : BitVec 4).toNat := by decide

theorem witness_EnvironmentInputsComeOnlyFromTheEnvironment :
    (∃ t, exec (.key 0 0x01) State.reset = .next t ∧ t.keyrow ≠ State.reset.keyrow) ∧
    (∃ t, exec (.joy .a 0x00) State.reset = .next t ∧ t.joyA ≠ State.reset.joyA) ∧
    (∃ t, exec (.joy .b 0x00) State.reset = .next t ∧ t.joyB ≠ State.reset.joyB) :=
  ⟨⟨_, rfl, by decide⟩, ⟨_, rfl, by decide⟩, ⟨_, rfl, by decide⟩⟩

/-- Selector 11 under the default decode and under one that rejects it. -/
theorem witness_CrbWriteConfiguresTimerB :
    crbDecode State.reset.cfg.crbInputDecode ((0x60 : Byte).extractLsb' 5 2) = some .timerAWithCnt ∧
    crbDecode odd.cfg.crbInputDecode ((0x60 : Byte).extractLsb' 5 2) = none := by decide

/-- The default decode gives each input one code; the odd one still gives the system clock one. -/
theorem witness_ControlReadsReturnTheStatus :
    (∀ c, crbDecode crbDecodeStandard c = some .timerA ↔ c = 2) ∧ (∀ c, crbDecode oddDecode c = some .systemClock ↔ c = 0) := by
  decide

theorem witness_CounterChangesOnlyWhereListed :
    (∃ t, exec .clk (runAB 1 3 0 9 .systemClock) = .next t ∧ t.ta.value ≠ (runAB 1 3 0 9 .systemClock).ta.value ∧
      t.tb.value ≠ (runAB 1 3 0 9 .systemClock).tb.value) ∧
    (∃ t, exec (.wTalo 0x00) State.reset = .next t ∧ t.ta.value ≠ State.reset.ta.value) ∧
    (∃ t, exec (.wCrb 0x10) (runAB 1 3 0 9 .systemClock) = .next t ∧ t.tb.value ≠ (runAB 1 3 0 9 .systemClock).tb.value) ∧
    (∃ t, exec .rst (runA 1 3) = .next t ∧ t.ta.value ≠ (runA 1 3).ta.value) :=
  ⟨⟨_, rfl, by decide, by decide⟩, ⟨_, rfl, by decide⟩, ⟨_, rfl, by decide⟩, ⟨_, rfl, by decide⟩⟩

theorem witness_ContinuousTimerHasPeriodLatchPlusOne :
    (runA 2 2).ta.enabled = true ∧ (runA 2 2).ta.mode = .continuous ∧ (runA 2 2).ta.input = .systemClock ∧
    (runA 2 2).ta.value = (runA 2 2).ta.latch := by decide

/-- Timer A in one-shot mode. -/
def oneShotA : State := { runA 1 3 with ta := { (runA 1 3).ta with mode := .oneShot } }

/-- Both clauses, at their common boundary: one clock, and two. -/
theorem witness_OneShotTimerStopsAtItsLatch :
    oneShotA.ta.enabled = true ∧ oneShotA.ta.mode = .oneShot ∧ oneShotA.ta.input = .systemClock ∧
    1 ≤ oneShotA.ta.value.toNat ∧ oneShotA.ta.value.toNat < 2 := by decide

theorem witness_ChainedTimersMultiply :
    let s := runAB 2 2 1 1 .timerA
    s.ta.enabled = true ∧ s.ta.mode = .continuous ∧ s.ta.input = .systemClock ∧ s.ta.value = s.ta.latch ∧
    s.tb.enabled = true ∧ s.tb.input = .timerA ∧ s.tb.value = s.tb.latch ∧
    5 < (s.tb.latch.toNat + 1) * (s.ta.latch.toNat + 1) := by decide

theorem witness_StoppedTimersConsumeNothing : State.reset.ta.enabled = false ∧ State.reset.tb.enabled = false := by decide

theorem witness_OutputSettingsAffectNothingElse :
    Instr.clk ≠ .rCra ∧ Instr.clk ≠ .rCrb ∧ (∀ v, Instr.clk ≠ .wCra v) ∧ (∀ v, Instr.clk ≠ .wCrb v) ∧ Instr.clk ≠ .rst ∧
    ∃ t, exec .clk (runA 0 5) = .next t :=
  ⟨by decide, by decide, by simp, by simp, by decide, _, rfl⟩

/-- An event that stays, one that the read clears. -/
theorem witness_EventsStayUntilReadOrReset :
    (∃ t, exec .clk (icrAt 0x10 0x00) = .next t ∧ (icrAt 0x10 0x00).icr.event.getLsbD 4 = true) ∧
    (∃ t, exec .rIcr (icrAt 0x10 0x00) = .next t) ∧ (∃ t, exec .rst (icrAt 0x10 0x00) = .next t) :=
  ⟨⟨_, rfl, by decide⟩, ⟨_, rfl⟩, ⟨_, rfl⟩⟩

theorem witness_EventsAreRecordedOnlyByTheirSource :
    (∃ t, exec .clk (runA 0 5) = .next t ∧ (runA 0 5).icr.event.getLsbD 0 = false ∧ t.icr.event.getLsbD 0 = true) ∧
    (∃ s t, exec .tod s = .next t ∧ s.icr.event.getLsbD 2 = false ∧ t.icr.event.getLsbD 2 = true) :=
  ⟨⟨_, rfl, by decide, by decide⟩, ⟨State.reset, _, rfl, by decide, by decide⟩⟩

theorem witness_OutputFallsOnlyByReadOrReset :
    (∃ t, exec .rIcr (asserted State.reset) = .next t ∧ (asserted State.reset).intTriggered = true ∧ t.intTriggered = false) ∧
    (∃ t, exec (.wIcr 0x81) (icrAt 0x01 0x00) = .next t ∧ (icrAt 0x01 0x00).intTriggered = false ∧ t.intTriggered = true) ∧
    (∃ t, exec .clk (asserted State.reset) = .next t) :=
  ⟨⟨_, rfl, by decide, by decide⟩, ⟨_, rfl, by decide, by decide⟩, ⟨_, rfl⟩⟩

theorem witness_BcdConversionsAreInverse : 99 ≤ 99 ∧ isBcd 0x99 = true ∧ isBcd 0x9A = false := by decide

/-- A frozen clock, and a running one at each end of its range. -/
theorem witness_TickIsTheSuccessorOnTheDay :
    (clockAt 1 0 0 0 false false).clock.enabled = false ∧
    ((clockAt 12 59 59 9 true true).clock.InRange ∧ (clockAt 12 59 59 9 true true).clock.enabled = true) ∧
    ((clockAt 1 0 0 0 false true).clock.InRange ∧ (clockAt 1 0 0 0 false true).clock.enabled = true) :=
  ⟨rfl, ⟨inRange_clockAt_end, rfl⟩, ⟨inRange_clockAt_start, rfl⟩⟩

theorem witness_RunningClockRepeatsEveryDay :
    (clockAt 12 59 59 9 true true).clock.InRange ∧ (clockAt 12 59 59 9 true true).clock.enabled = true ∧
    864000 % 864000 = 0 ∧ 432000 % 864000 = 432000 := ⟨inRange_clockAt_end, rfl, by decide, by decide⟩

theorem witness_AlarmMatchesOncePerDay :
    (clockAt 1 0 0 0 false true).clock.InRange ∧ (clockAt 1 0 0 0 false true).clock.enabled = true ∧
    (clockAt 1 0 0 0 false true).alarm.InRange := ⟨inRange_clockAt_start, rfl, inRange_alarm⟩

theorem witness_TodReadsReturnTheClockInBcd : (clockAt 12 59 59 9 true true).clock.InRange := inRange_clockAt_end

theorem witness_TenthsReadFreezesTheClock :
    (clockAt 12 59 59 9 true true).clock.InRange ∧ (clockAt 12 59 59 9 true true).clock.enabled = true :=
  ⟨inRange_clockAt_end, rfl⟩

/-- The last legal byte and the first illegal one. -/
theorem witness_TenthsWriteResumesTheClock :
    (0x09 : Byte).toNat ≤ 9 ∧ 9 < (0x0A : Byte).toNat ∧ State.reset.cfg.todIllegal = .refused := by decide

/-- The last legal byte, and an illegal one in each digit. -/
theorem witness_SecondsAndMinutesWritesSetTheTarget :
    ((0x59 : Byte).toNat / 16 ≤ 5 ∧ (0x59 : Byte).toNat % 16 ≤ 9) ∧
    (5 < (0x60 : Byte).toNat / 16) ∧ (9 < (0x5A : Byte).toNat % 16) ∧ State.reset.cfg.todIllegal = .refused := by decide

/-- Legal bytes at each end of each range, and illegal ones beside them. -/
theorem witness_HoursWriteStopsTheClock :
    [(0x01 : Byte), 0x09, 0x10, 0x92].all hoursLegal = true ∧
    [(0x00 : Byte), 0x0A, 0x0F, 0x13, 0x80].all (fun v => !hoursLegal v) = true ∧ State.reset.cfg.todIllegal = .refused := by
  decide

theorem witness_CoercedWritesStoreALegalValue : coercing.cfg.todIllegal = .coerced 0 := by decide

theorem witness_FreezeLatchIsWrittenInThreePlaces :
    (∃ s t, exec .rTod10 s = .next t ∧ s.clock.enabled = true ∧ t.clock.enabled = false) ∧
    (∃ s t, exec (.wTodhr 0x01) s = .next t ∧ s.clock.enabled = true ∧ t.clock.enabled = false) ∧
    (∃ s t, exec (.wTod10 0x00) s = .next t ∧ s.clock.enabled = false ∧ t.clock.enabled = true) :=
  ⟨⟨clockAt 1 0 0 0 false true, _, rfl, rfl, rfl⟩, ⟨clockAt 1 0 0 0 false true, _, rfl, rfl, rfl⟩,
    ⟨clockAt 1 0 0 0 false false, _, rfl, rfl, rfl⟩⟩

theorem witness_OnlyTwoReadsHaveSideEffects : Reg.pra ≠ .icr ∧ Reg.pra ≠ .tod10 := by decide

theorem witness_IdentityDecidesOnlyLineAndPortReads : Instr.rIcr ≠ .rPra ∧ Instr.rIcr ≠ .rPrb := by decide

end Sys2Proof.Tests
end

section
/-! The sixteen bus reads, said once (spec/20_memory.md rule R66): the byte that each register gives, the state that its read
leaves, and what the two reads with a side effect do. -/

namespace Sys2Proof.Machine

/-- The byte that the read of a register returns. -/
def readByte (s : State) : Reg → Byte
  | .pra => praByte s
  | .prb => prbByte s
  | .ddra => s.pa.direction
  | .ddrb => s.pb.direction
  | .talo => loByte s.ta.value
  | .tahi => hiByte s.ta.value
  | .tblo => loByte s.tb.value
  | .tbhi => hiByte s.tb.value
  | .tod10 => toBcd s.clock.tenths
  | .todsec => toBcd s.clock.seconds
  | .todmin => toBcd s.clock.minutes
  | .todhr => toBcd s.clock.hours ||| (if s.clock.pm then 0x80 else 0x00)
  | .sdr => 0x00
  | .icr => s.icr.data
  | .cra => craByte s.ta
  | .crb => crbByte s.cfg.crbInputDecode s.tb s.todSetAlarm

/-- The state that the read of a register leaves, but for the byte returned: `R ICR` acknowledges and `R TOD10` freezes the
clock. -/
def State.afterRead (s : State) : Reg → State
  | .icr => s.acknowledge
  | .tod10 => s.setClockEnabled false
  | _ => s

/-- Every bus read completes, and this is all it does. -/
theorem exec_readInstr (r : Reg) (s : State) :
    exec (readInstr r) s = .next ((s.afterRead r).returning (readByte s r)) := by
  cases r <;> rfl

theorem State.afterRead_of_pure (s : State) {r : Reg} (hIcr : r ≠ .icr) (hTod : r ≠ .tod10) : s.afterRead r = s := by
  cases r with
  | icr => exact absurd rfl hIcr
  | tod10 => exact absurd rfl hTod
  | _ => rfl

/-- No register shows the byte that an earlier read returned. -/
@[simp] theorem readByte_returning (s : State) (b : Byte) (r : Reg) : readByte (s.returning b) r = readByte s r := by
  cases r <;> rfl

@[simp] theorem State.returning_returning (s : State) (b c : Byte) : (s.returning b).returning c = s.returning c := rfl

/-- A read without side effect only returns its byte. -/
theorem exec_readInstr_of_pure (s : State) {r : Reg} (hIcr : r ≠ .icr) (hTod : r ≠ .tod10) :
    exec (readInstr r) s = .next (s.returning (readByte s r)) := by
  rw [exec_readInstr, s.afterRead_of_pure hIcr hTod]

/-- The acknowledgement inside `R ICR` releases the output and the chip's hold on its line (rule R185). -/
theorem State.acknowledge_returning_outputReleased (s : State) (b : Byte) :
    OutputReleased s (s.acknowledge.returning b) where
  output := s.acknowledge_intTriggered
  line := s.lineClear_line
  other := s.lineClear_otherLine

/-- Settles O58: a read other than the two leaves the state but for the byte returned, and that byte does not depend on
what was returned before. -/
theorem onlyTwoReadsHaveSideEffects : Obligations.OnlyTwoReadsHaveSideEffects := by
  refine ⟨fun r s hIcr hTod => ⟨readByte s r, exec_readInstr_of_pure s hIcr hTod, ?_⟩, fun s => ?_, fun s => ?_⟩
  · calc exec (readInstr r) (s.returning (readByte s r))
        = .next ((s.returning (readByte s r)).returning (readByte (s.returning (readByte s r)) r)) :=
          exec_readInstr_of_pure _ hIcr hTod
      _ = .next (s.returning (readByte s r)) := by rw [readByte_returning, State.returning_returning]
  · exact ⟨_, exec_readInstr .icr s, s.icr.clearEvents_event, s.acknowledge_returning_outputReleased _⟩
  · exact ⟨_, exec_readInstr .tod10 s, rfl⟩

end Sys2Proof.Machine
end

section
/-! The BCD conversions (spec/30_encoding.md rule R86): the byte of a number up to 99 is BCD, and the two conversions are
inverse to each other on their domains. -/

namespace Sys2Proof.Machine

theorem isBcd_toBcd {n : Nat} (h : n ≤ 99) : isBcd (toBcd n) = true := by
  rw [isBcd_iff, toBcd_toNat h]
  omega

theorem fromBcd_toBcd {n : Nat} (h : n ≤ 99) : fromBcd (toBcd n) = n := by
  unfold fromBcd
  rw [toBcd_toNat h]
  omega

theorem fromBcd_le {b : Byte} (h : isBcd b = true) : fromBcd b ≤ 99 := by
  obtain ⟨hTens, hUnits⟩ := (isBcd_iff b).1 h
  unfold fromBcd
  omega

theorem toBcd_fromBcd {b : Byte} (h : isBcd b = true) : toBcd (fromBcd b) = b := by
  obtain ⟨_, hUnits⟩ := (isBcd_iff b).1 h
  apply BitVec.eq_of_toNat_eq
  rw [toBcd_toNat (fromBcd_le h)]
  unfold fromBcd
  omega

/-- Settles O45: digit by digit, as a BCD byte has its tens in the upper nibble and its units in the lower. -/
theorem bcdConversionsAreInverse : Obligations.BcdConversionsAreInverse :=
  ⟨fun _ h => ⟨toBcd_toNat h, isBcd_toBcd h, fromBcd_toBcd h⟩,
    fun b => ⟨isBcd_iff b, fun h => ⟨rfl, toBcd_fromBcd h⟩⟩⟩

end Sys2Proof.Machine
end

section
/-! Words of the register bus (spec/30_encoding.md rules R81, R82), written as the byte of class and sel and the data byte:
class 0 decodes to the read and class 1 to the write of the register that sel addresses. -/

namespace Sys2Proof

/-- The data byte of a read word plays no part. -/
theorem decode_append_of_class_read {u : Byte} (h : u.extractLsb' 4 4 = 0x0#4) (d : Byte) :
    decode (u ++ d) = .ok (readInstr (Reg.ofAddr (u.extractLsb' 0 4))) := by
  simp only [append_eq_opWord, decode, opClass_opWord, opSel_opWord, h]

theorem decode_append_of_class_write {u : Byte} (h : u.extractLsb' 4 4 = 0x1#4) (v : Byte) :
    decode (u ++ v) = .ok (writeInstr (Reg.ofAddr (u.extractLsb' 0 4)) v) := by
  simp only [append_eq_opWord, decode, opClass_opWord, opSel_opWord, opData_opWord, h]

end Sys2Proof
end

section
/-! Pins and port directions (spec/40_pin_port.md): which operations write a pin record (rules R110, R128), what a port line
shows (rules R115, R120), and the direction registers (rules R118, R119, R122, R123). -/

namespace Sys2Proof.Machine

/-! ### Pins -/

/-- The record of CNT stays, but under its own `PIN` and under `RST`. -/
theorem Effect.cnt_eq_or {i : Instr} {s t : State} (h : Effect i s t) :
    t.cnt = s.cnt ∨ (∃ l, i = .pin .cnt l) ∨ i = .rst := by
  cases h with
  | pinCnt l => exact .inr (.inl ⟨l, rfl⟩)
  | rst => exact .inr (.inr rfl)
  | rIcr | wIcr | clk | todMatch => left; simp
  | _ => exact .inl rfl

/-- The record of FLAG stays, but under its own `PIN` and under `RST`. -/
theorem Effect.flag_eq_or {i : Instr} {s t : State} (h : Effect i s t) :
    t.flag = s.flag ∨ (∃ l, i = .pin .flag l) ∨ i = .rst := by
  cases h with
  | pinFlag l => exact .inr (.inl ⟨l, rfl⟩)
  | rst => exact .inr (.inr rfl)
  | rIcr | wIcr | clk | todMatch => left; simp
  | _ => exact .inl rfl

/-- Settles O17: by the forms of `Effect`, an operation that is neither that pin's `PIN` nor `RST` leaves the record as it
was; of the others, only those that drive the interrupt line need a lemma for it. -/
theorem pinsAreWrittenOnlyByPinAndReset : Obligations.PinsAreWrittenOnlyByPinAndReset :=
  fun _ _ _ h => ⟨(exec_effect h).cnt_eq_or.resolve_left, (exec_effect h).flag_eq_or.resolve_left⟩

/-- Settles O16: the four words are read off the table of rule R81, and the effect is `Pin.set` on the one record. -/
theorem pinUpdateShiftsTheLevel : Obligations.PinUpdateShiftsTheLevel :=
  ⟨by decide, fun _ _ => ⟨rfl, rfl⟩⟩

/-! ### Ports -/

/-- The direction bit of a line selects its driven bit or its external bit (rule R115). -/
theorem effective_getLsbD (p : Port) {n : Nat} (hn : n < 8) :
    (effective p).getLsbD n = if p.direction.getLsbD n then p.value.getLsbD n else p.external.getLsbD n := by
  simp only [effective, BitVec.getLsbD_or, BitVec.getLsbD_and, BitVec.getLsbD_not, hn]
  cases p.direction.getLsbD n <;> simp

/-- On the scanning chip the joystick mask is ANDed in, on the other chip nothing is (rule R120). -/
theorem praByte_getLsbD (s : State) (n : Nat) :
    (praByte s).getLsbD n =
      ((effective s.pa).getLsbD n && if s.cfg.chipId = s.cfg.kbdChip then s.joyA.getLsbD n else true) := by
  unfold praByte
  split
  · rw [BitVec.getLsbD_and]
  · rw [Bool.and_true]

/-- Settles O21: the read returns `praByte`, whose bits are those of `effective` under the mask. -/
theorem portAReadSelectsBitByBit : Obligations.PortAReadSelectsBitByBit := fun s d =>
  ⟨decode_append_of_class_read rfl d, praByte s, exec_readInstr .pra s,
    fun n hn => by rw [praByte_getLsbD, effective_getLsbD s.pa hn]⟩

/-- Settles O19: the words are bus words of class 1 and class 0, and the two reads have no side effect. -/
theorem directionRegistersAreStoredAndReadBack : Obligations.DirectionRegistersAreStoredAndReadBack := fun s v =>
  ⟨⟨decode_append_of_class_write rfl v, rfl⟩, ⟨decode_append_of_class_write rfl v, rfl⟩,
    ⟨decode_append_of_class_read rfl v, exec_readInstr .ddra s⟩,
    ⟨decode_append_of_class_read rfl v, exec_readInstr .ddrb s⟩⟩

end Sys2Proof.Machine
end

section
/-! The counter and latch registers (spec/41_timer.md rules R144, R146 to R150): the two bytes of a 16-bit value, and the
latch writes with their reload of a stopped timer. -/

namespace Sys2Proof.Machine

/-! ### Reads of the live counters -/

/-- The two bytes of a 16-bit value, summed by their weights, are the value (rule R84). -/
theorem hiByte_loByte_sum (x : Word16) : 256 * (hiByte x).toNat + (loByte x).toNat = x.toNat := by
  rw [← ofBytes_toNat, ofBytes_hiByte_loByte]

/-- Settles O27: the words are bus words of class 0, and the reads, which have no side effect, return the two bytes of the
counter. -/
theorem counterReadsReturnTheLiveBytes : Obligations.CounterReadsReturnTheLiveBytes := fun s d =>
  ⟨⟨decode_append_of_class_read rfl d, decode_append_of_class_read rfl d,
      decode_append_of_class_read rfl d, decode_append_of_class_read rfl d⟩,
    ⟨_, _, exec_readInstr .talo s, exec_readInstr .tahi s, hiByte_loByte_sum s.ta.value⟩,
    ⟨_, _, exec_readInstr .tblo s, exec_readInstr .tbhi s, hiByte_loByte_sum s.tb.value⟩⟩

/-! ### Latch writes -/

/-- A running timer keeps its counter, a stopped one takes the latch, and nothing else changes. -/
theorem Timer.reloadIfStopped_eq {ι : Type} (t : Timer ι) :
    t.reloadIfStopped = { t with value := if t.enabled then t.value else t.latch } := by
  unfold Timer.reloadIfStopped
  split <;> rfl

theorem Timer.writeHi_eq {ι : Type} (t : Timer ι) (v : Byte) :
    t.writeHi v = { t with
      latch := ofBytes v (loByte t.latch)
      value := if t.enabled then t.value else ofBytes v (loByte t.latch) } :=
  Timer.reloadIfStopped_eq _

/-- The latch that a write of the high byte makes: the low byte stays. -/
theorem ofBytes_loByte_toNat (v : Byte) (x : Word16) : (ofBytes v (loByte x)).toNat = 256 * v.toNat + x.toNat % 256 := by
  rw [ofBytes_toNat, loByte_toNat]

/-- Settles O28: the words are bus words of class 1, and either write replaces its one timer by `Timer.writeHi` of it. -/
theorem highLatchWriteReloadsStoppedTimer : Obligations.HighLatchWriteReloadsStoppedTimer := fun s v =>
  ⟨⟨decode_append_of_class_write rfl v, _, ofBytes_loByte_toNat v s.ta.latch,
      congrArg (fun t => (.next { s with ta := t } : Out)) (s.ta.writeHi_eq v)⟩,
    ⟨decode_append_of_class_write rfl v, _, ofBytes_loByte_toNat v s.tb.latch,
      congrArg (fun t => (.next { s with tb := t } : Out)) (s.tb.writeHi_eq v)⟩⟩

end Sys2Proof.Machine
end

section
/-! The interrupt control register (spec/42_icr.md): the mask write with its check of the output (rules R181, R186, R187), and
which operation records which event (rule R188). -/

namespace Sys2Proof.Machine

/-! ### The mask write -/

/-- Asserting changes the lines only. -/
theorem State.lineAssert_frame (s : State) : { s.lineAssert with irq := s.irq, nmi := s.nmi } = s := by
  unfold State.lineAssert
  split <;> rfl

/-- The check changes the output and the lines only (rule R187). -/
theorem State.irqCheck_frame (s : State) :
    { s.irqCheck with intTriggered := s.intTriggered, irq := s.irq, nmi := s.nmi } = s := by
  rcases s.irqCheck_cases with ⟨_, _, h⟩ | ⟨_, h⟩ <;> rw [h]
  exact congrArg (fun u : State => { u with intTriggered := s.intTriggered }) s.lineAssert_frame

/-- A write reaches the low seven mask bits, each under its own bit of the byte (rule R181). -/
theorem Icr.updateMask_mask_bit_of_lt (r : Icr) (v : Byte) {n : Nat} (hn : n < 7) :
    (r.updateMask v).mask.getLsbD n = if v.getLsbD n then v.getLsbD 7 else r.mask.getLsbD n := by
  simp only [Icr.updateMask_mask_bit, hn, true_and]

theorem Icr.updateMask_mask_bit_seven (r : Icr) (v : Byte) :
    (r.updateMask v).mask.getLsbD 7 = r.mask.getLsbD 7 := by
  simp only [Icr.updateMask_mask_bit, Nat.lt_irrefl, false_and, if_false]

/-- Settles O41: the write is `Icr.updateMask` followed by the check, which leaves the ICR alone. -/
theorem icrWriteSetsOrClearsTheMask : Obligations.IcrWriteSetsOrClearsTheMask := by
  intro s v
  refine ⟨decode_append_of_class_write rfl v, { s with icr := s.icr.updateMask v }.irqCheck, rfl, ?_⟩
  rw [State.irqCheck_icr]
  exact ⟨fun n hn => s.icr.updateMask_mask_bit_of_lt v hn, s.icr.updateMask_mask_bit_seven v, s.icr.updateMask_event v,
    State.irqCheck_checked rfl rfl rfl rfl,
    congrArg (fun u : State => { u with icr := s.icr }) (State.irqCheck_frame { s with icr := s.icr.updateMask v })⟩

/-! ### The sources of the events -/

theorem Pin.isFalling_iff (p : Pin) : p.isFalling = true ↔ p.prevLevel = true ∧ p.level = false := by
  simp [Pin.isFalling]

/-- The events of a clock: those there were, and the three it can record (rule R241). -/
theorem State.advance_event_bit (s : State) (n : Nat) :
    s.advance.icr.event.getLsbD n = true ↔ s.icr.event.getLsbD n = true ∨
      (n = 0 ∧ TimerAExpires s) ∨ (n = 1 ∧ TimerBExpires s) ∨ (n = 4 ∧ FlagFalls s) := by
  rw [FlagFalls, ← underflowA_iff, ← underflowB_iff, ← Pin.isFalling_iff]
  simp only [State.advance_icr, Icr.recordIf_event_bit, Bool.or_eq_true, Bool.and_eq_true, decide_eq_true_eq]
  simp only [Event.bit]
  tauto

/-- The events of a time-of-day tick: those there were, and the alarm if the clock it leaves equals the alarm (rule R242). -/
theorem State.todTick_event_bit (s : State) (n : Nat) :
    s.todTick.icr.event.getLsbD n = true ↔ s.icr.event.getLsbD n = true ∨
      (n = 2 ∧ SameReading s.todTick.clock s.todTick.alarm) := by
  rcases s.todTick_cases with ⟨hm, h⟩ | ⟨hm, h⟩ <;> rw [h]
  · have hBit : n = Event.alarm.bit ↔ n = 2 := Iff.rfl
    simp [hm, hBit]
  · simp [hm]

/-- Every operation but `CLK` and `TOD` keeps the events, or is one of the two that clear them all (rule R190). -/
theorem Effect.event_eq_or {i : Instr} {s t : State} (h : Effect i s t) (hClk : i ≠ .clk) (hTod : i ≠ .tod) :
    t.icr.event = s.icr.event ∨ ((i = .rIcr ∨ i = .rst) ∧ t.icr.event = 0) := by
  cases h with
  | clk => exact absurd rfl hClk
  | todMatch | todNoMatch => exact absurd rfl hTod
  | rIcr => exact .inr ⟨.inl rfl, s.icr.clearEvents_event⟩
  | rst => exact .inr ⟨.inr rfl, rfl⟩
  | wIcr => left; simp
  | _ => exact .inl rfl

/-- Settles O43: `CLK` and `TOD` record what their event lemmas say, and no other operation sets a bit. -/
theorem eventsAreRecordedOnlyByTheirSource : Obligations.EventsAreRecordedOnlyByTheirSource := by
  intro i s t n h hn
  by_cases hClk : i = .clk
  · subst hClk
    cases h
    rw [State.irqCheck_icr, State.advance_event_bit]
    simp [hn]
  by_cases hTod : i = .tod
  · subst hTod
    cases h
    rw [State.todTick_event_bit]
    simp [hn]
  rcases (exec_effect h).event_eq_or hClk hTod with he | ⟨_, he⟩ <;> rw [he]
  · simp [hn, hClk, hTod]
  · simp [hClk, hTod]

end Sys2Proof.Machine
end

section
/-! The time-of-day registers (spec/43_tod.md): the successor on the day (rule R200), the reads of seconds, minutes and hours
(rules R204 to R206), and the writes of tenths, seconds and minutes (rules R207 to R209). -/

namespace Sys2Proof.Machine

/-! ### The tick -/

/-- A tick of a running clock is the successor of its ordinal, which wraps at the end of the day (rule R200). -/
theorem Clock.tick_ordinal {c : Clock} (hc : c.InRange) (he : c.enabled = true) :
    c.tick.ordinal = (c.ordinal + 1) % 864000 := by
  obtain ⟨hTenths, hSeconds, hMinutes, hLo, hHi⟩ := hc
  have hHalf : (if c.pm then 12 else 0) ≤ 12 := by split <;> decide
  rw [Clock.tick, if_pos he]
  split_ifs with ht hs hm hh
  · simp only [Clock.ordinal]; omega
  · simp only [Clock.ordinal]; omega
  · simp only [Clock.ordinal]; omega
  · simp only [Clock.ordinal]; omega
  · -- The hour 12 goes to 1 and the half of the day changes; out of PM the ordinal wraps to 0.
    simp only [Clock.ordinal]
    cases c.pm
    · rw [if_pos (by decide), if_neg (by decide)]; omega
    · rw [if_neg (by decide), if_pos (by decide)]; omega

/-- Settles O46: the carries of the tick are those of the ordinal, field by field, and the latch and the ranges stay. -/
theorem tickIsTheSuccessorOnTheDay : Obligations.TickIsTheSuccessorOnTheDay := fun c =>
  ⟨Clock.tick_of_frozen, fun hc he => ⟨Clock.tick_inRange hc, c.tick_enabled.trans he, Clock.tick_ordinal hc he⟩⟩

/-! ### The reads -/

/-- The PM flag takes bit 7 of an hours byte and leaves the digits alone. -/
theorem or_pmFlag_toNat_mod {b : Byte} (hb : b.toNat < 128) (pm : Bool) :
    (b ||| (if pm then 0x80 else 0x00)).toNat % 128 = b.toNat := by
  have hFlag : (if pm then 0x80 else 0x00 : Byte).toNat % 2 ^ 7 = 0 := by cases pm <;> rfl
  rw [BitVec.toNat_or, show 128 = 2 ^ 7 from rfl, Nat.or_mod_two_pow, hFlag, Nat.or_zero]
  exact Nat.mod_eq_of_lt hb

theorem or_pmFlag_getLsbD_seven {b : Byte} (hb : b.toNat < 128) (pm : Bool) :
    (b ||| (if pm then 0x80 else 0x00)).getLsbD 7 = pm := by
  have hBit : b.getLsbD 7 = false := Nat.testBit_lt_two_pow hb
  rw [BitVec.getLsbD_or, hBit, Bool.false_or]
  cases pm <;> rfl

/-- Settles O50: the words are bus words of class 0, and the reads, which have no side effect, return `ToBcd` of a number up
to 59, whose digits for an hour leave bit 7 to the PM flag. -/
theorem todReadsReturnTheClockInBcd : Obligations.TodReadsReturnTheClockInBcd := by
  intro s d hc
  have hHours : (toBcd s.clock.hours).toNat = 16 * (s.clock.hours / 10) + s.clock.hours % 10 :=
    toBcd_toNat (hc.hours_hi.trans (by decide))
  have hDigits : (toBcd s.clock.hours).toNat < 128 := by
    have := hc.hours_hi
    omega
  exact ⟨⟨decode_append_of_class_read rfl d, decode_append_of_class_read rfl d, decode_append_of_class_read rfl d⟩,
    ⟨_, exec_readInstr .todsec s, toBcd_toNat (hc.seconds.trans (by decide))⟩,
    ⟨_, exec_readInstr .todmin s, toBcd_toNat (hc.minutes.trans (by decide))⟩,
    ⟨_, exec_readInstr .todhr s, (or_pmFlag_toNat_mod hDigits _).trans hHours, or_pmFlag_getLsbD_seven hDigits _⟩⟩

/-! ### The writes -/

section
variable {α β : Type} {value : Option α} {out refusal : β} {effect : α → β}

/-- What a write does, given the two cases of its value, when the byte has a value. -/
theorem write_of_value (h : (∃ n, value = some n ∧ out = effect n) ∨ (value = none ∧ out = refusal)) {n : α}
    (hv : value = some n) : out = effect n := by
  rcases h with ⟨m, hm, hOut⟩ | ⟨hNone, _⟩
  · rw [hOut, Option.some.inj (hm.symm.trans hv)]
  · rw [hNone] at hv
    cases hv

/-- What a write does, given the two cases of its value, when the byte has none. -/
theorem write_of_no_value (h : (∃ n, value = some n ∧ out = effect n) ∨ (value = none ∧ out = refusal))
    (hv : value = none) : out = refusal := by
  rcases h with ⟨m, hm, _⟩ | ⟨_, hOut⟩
  · rw [hm] at hv
    cases hv
  · exact hOut

end

/-- An illegal byte has no value where there is no `TOD_COERCE` (rule R212). -/
theorem todValue_of_illegal {k : TodIllegal} (hk : k = .refused) {legal : Bool} (h : ¬legal = true) (bcd : Byte)
    (a : RegAddr) (v : Byte) (l p : Nat) : todValue k legal bcd a v l p = none := by
  rw [hk]
  exact todValue_refused (Bool.eq_false_of_not_eq_true h) bcd a v l p

theorem tenthsValue_of_le {v : Byte} (h : v.toNat ≤ 9) (k : TodIllegal) : tenthsValue k v = some v.toNat := by
  rw [tenthsValue, todValue_of_legal ((tenthsLegal_iff v).2 h), fromBcd_tenths h]

/-- Settles O52: the word is a bus word of class 1, and the byte has the value of its one digit, or none above 9. -/
theorem tenthsWriteResumesTheClock : Obligations.TenthsWriteResumesTheClock := by
  refine fun s v => ⟨decode_append_of_class_write rfl v, fun hv => ?_, fun hv hk => ?_⟩
  · exact write_of_value (execWTod10_cases v s) (tenthsValue_of_le hv _)
  · have hIllegal : ¬tenthsLegal v = true := mt (tenthsLegal_iff v).1 (by omega)
    exact write_of_no_value (execWTod10_cases v s) (todValue_of_illegal hk hIllegal v _ v _ _)

/-- Settles O53: the words are bus words of class 1, and at either register the byte has the value of its two digits, or
none where they are not those of a number up to 59. -/
theorem secondsAndMinutesWritesSetTheTarget : Obligations.SecondsAndMinutesWritesSetTheTarget := by
  refine fun s v => ⟨⟨decode_append_of_class_write rfl v, decode_append_of_class_write rfl v⟩, fun hTens hUnits => ?_,
    fun hv hk => ?_⟩
  · have hLegal : sixtyLegal v = true := (sixtyLegal_iff v).2 ⟨hTens, hUnits⟩
    exact ⟨write_of_value (execWTodsec_cases v s) (todValue_of_legal hLegal _ v _ v _ _),
      write_of_value (execWTodmin_cases v s) (todValue_of_legal hLegal _ v _ v _ _)⟩
  · have hIllegal : ¬sixtyLegal v = true := mt (sixtyLegal_iff v).1 (by omega)
    exact ⟨write_of_no_value (execWTodsec_cases v s) (todValue_of_illegal hk hIllegal v _ v _ _),
      write_of_no_value (execWTodmin_cases v s) (todValue_of_illegal hk hIllegal v _ v _ _)⟩

end Sys2Proof.Machine
end

section
/-! The chip's clock and its serial register (spec/44_chip.md): what a `CLK` does to both timers, the events, the output and
the rest of the state (rules R241, R245), and a serial register that shows nothing and keeps nothing (rules R243, R244). -/

namespace Sys2Proof.Machine

/-! ### The clock -/

/-- Timer A takes its own pulse (rule R155). -/
theorem State.advance_timerA (s : State) : TimerStep (TimerACounts s) s.ta s.advance.ta :=
  s.ta.step_spec (pulseA s) (pulseA_iff s).symm

/-- Timer B takes a pulse that may be timer A's underflow of the same clock (rules R156, R245). -/
theorem State.advance_timerB (s : State) : TimerStep (TimerBCounts s) s.tb s.advance.tb :=
  s.tb.step_spec (pulseB s (underflowA s)) (pulseB_iff s).symm

/-- The check comes after the events are recorded and leaves them alone (rule R245). -/
theorem State.advance_irqCheck_event_bit (s : State) (n : Nat) :
    s.advance.irqCheck.icr.event.getLsbD n = true ↔ s.icr.event.getLsbD n = true ∨
      (n = 0 ∧ TimerAExpires s) ∨ (n = 1 ∧ TimerBExpires s) ∨ (n = 4 ∧ FlagFalls s) := by
  rw [State.irqCheck_icr, s.advance_event_bit]

/-- A clock changes the timers, the events, the output and the lines only. -/
theorem State.advance_irqCheck_frame (s : State) :
    { s.advance.irqCheck with ta := s.ta, tb := s.tb, icr := s.icr, intTriggered := s.intTriggered,
                              irq := s.irq, nmi := s.nmi } = s :=
  congrArg (fun u : State => { u with ta := s.ta, tb := s.tb, icr := s.icr }) s.advance.irqCheck_frame

/-- The advance of the timers and its events, then one check of the output: the whole of rule R241. -/
theorem State.advance_irqCheck_clkEffect (s : State) : ClkEffect s s.advance.irqCheck where
  timerA := by
    rw [State.irqCheck_ta]
    exact s.advance_timerA
  timerB := by
    rw [State.irqCheck_tb]
    exact s.advance_timerB
  event0 := by
    rw [s.advance_irqCheck_event_bit]
    simp
  event1 := by
    rw [s.advance_irqCheck_event_bit]
    simp
  event4 := by
    rw [s.advance_irqCheck_event_bit]
    simp
  events n h0 h1 h4 := by
    rw [Bool.eq_iff_iff, s.advance_irqCheck_event_bit]
    simp [h0, h1, h4]
  mask := by
    rw [State.irqCheck_icr, State.advance_icr]
    simp only [Icr.recordIf_mask]
  output := State.irqCheck_checked rfl rfl rfl rfl
  frame := s.advance_irqCheck_frame

/-- Settles O33: the word is read off the table of rule R81, and `CLK` is the advance followed by the check. -/
theorem clkAdvancesTimersAndRecordsEvents : Obligations.ClkAdvancesTimersAndRecordsEvents :=
  ⟨by decide, fun s => ⟨s.advance.irqCheck, rfl, s.advance_irqCheck_clkEffect⟩⟩

/-! ### The serial register -/

/-- Settles O57: the words are the bus words of class 0 and class 1 at the register's address, the read has no side effect,
and the write has no effect at all. -/
theorem serialRegisterIsInert : Obligations.SerialRegisterIsInert := fun s v =>
  ⟨decode_append_of_class_read rfl v, exec_readInstr .sdr s, decode_append_of_class_write rfl v, rfl⟩

end Sys2Proof.Machine
end

section
/-! Reset (spec/70_reset_and_hazards.md rule R300): what `RST` does to the output and the lines, what it leaves unchanged, and
that a second `RST` finds nothing to change. -/

namespace Sys2Proof.Machine

/-! ### Clearing the line -/

/-- A source once taken off a line stays off it. -/
@[simp] theorem Line.clear_clear (l : Line) (id : ChipId) : (l.clear id).clear id = l.clear id := by
  simp only [Line.clear, List.filter_filter, Bool.and_self]

/-- Clearing changes the lines only. -/
theorem State.lineClear_frame (s : State) : { s.lineClear with irq := s.irq, nmi := s.nmi } = s := by
  unfold State.lineClear
  split <;> rfl

/-! ### `RST` -/

/-- Reset releases the output and the chip's hold on its line, whichever it drives (rule R304). -/
theorem State.resetChip_outputReleased (s : State) : OutputReleased s s.resetChip where
  output := s.resetChip_intTriggered
  line := s.lineClear_line
  other := s.lineClear_otherLine

/-- Reset leaves the parameters, the clock, the alarm, the environment inputs and the model's own two fields unchanged
(rules R307, R309). -/
theorem State.resetChip_frame (s : State) :
    { s.resetChip with pa := s.pa, pb := s.pb, ta := s.ta, tb := s.tb, icr := s.icr, cnt := s.cnt, flag := s.flag,
                       todSetAlarm := s.todSetAlarm, intTriggered := s.intTriggered, irq := s.irq, nmi := s.nmi } = s :=
  congrArg (fun u : State =>
    { u with pa := s.pa, pb := s.pb, ta := s.ta, tb := s.tb, icr := s.icr, cnt := s.cnt, flag := s.flag,
             todSetAlarm := s.todSetAlarm, intTriggered := s.intTriggered }) s.lineClear_frame

/-- A second reset changes nothing: the values of rules R301 to R306 depend on the parameters only, which a reset keeps, and
on the line that the chip drives its source is gone already. -/
@[simp] theorem State.resetChip_resetChip (s : State) : s.resetChip.resetChip = s.resetChip := by
  cases h : s.cfg.chipId <;> simp only [State.resetChip, State.lineClear, h, Line.clear_clear]

/-- Settles O9: the word is read off the table of rule R81, and `RST` is the reset of the chip. -/
theorem resetEstablishesTheResetState : Obligations.ResetEstablishesTheResetState :=
  ⟨by decide, fun s => ⟨s.resetChip, rfl, s.resetChip_pa, s.resetChip_pb, s.resetChip_ta, s.resetChip_tb, s.resetChip_icr,
    s.resetChip_cnt, s.resetChip_flag, s.resetChip_todSetAlarm, s.resetChip_outputReleased, s.resetChip_frame,
    congrArg (Host.Outcome.next : State → Out) s.resetChip_resetChip⟩⟩

end Sys2Proof.Machine
end

section
/-! The encoding whole (spec/30_encoding.md rules R81, R93, R99): which word decodes to which operation, said once as the
relation `Decodes`; which word is rejected under which name; and the rows of spec/opcode_table.json. -/

namespace Sys2Proof

/-! ### Registers and their addresses -/

/-- The address of a register (rule R82). -/
def Reg.addr : Reg → RegAddr
  | .pra => 0x0 | .prb => 0x1 | .ddra => 0x2 | .ddrb => 0x3
  | .talo => 0x4 | .tahi => 0x5 | .tblo => 0x6 | .tbhi => 0x7
  | .tod10 => 0x8 | .todsec => 0x9 | .todmin => 0xA | .todhr => 0xB
  | .sdr => 0xC | .icr => 0xD | .cra => 0xE | .crb => 0xF

@[simp] theorem Reg.addr_ofAddr (a : RegAddr) : (Reg.ofAddr a).addr = a := by
  revert a
  decide

theorem encode_readInstr (r : Reg) : encode (readInstr r) = opWord 0x0 r.addr 0 := by
  cases r <;> rfl

theorem encode_writeInstr (r : Reg) (v : Byte) : encode (writeInstr r v) = opWord 0x1 r.addr v := by
  cases r <;> rfl

theorem wellFormed_readInstr (r : Reg) : (readInstr r).wellFormed = true := by
  cases r <;> rfl

theorem wellFormed_writeInstr (r : Reg) (v : Byte) : (writeInstr r v).wellFormed = true := by
  cases r <;> rfl

/-! ### The words that decode -/

/-- Which word stands for which operation: the table of rule R81, class by class. -/
inductive Decodes : OpWord → Instr → Prop where
  | read (n : RegAddr) (d : Byte) : Decodes (opWord 0x0 n d) (readInstr (Reg.ofAddr n))
  | write (n : RegAddr) (v : Byte) : Decodes (opWord 0x1 n v) (writeInstr (Reg.ofAddr n) v)
  | clk : Decodes (opWord 0x2 0 0) .clk
  | tod : Decodes (opWord 0x3 0 0) .tod
  | rst : Decodes (opWord 0x4 0 0) .rst
  | pin (p : PinSel) (l : Bool) : Decodes (opWord 0x5 p.code (if l then 1 else 0)) (.pin p l)
  | portin (p : PortSel) (v : Byte) : Decodes (opWord 0x6 p.code v) (.portin p v)
  | key (i : BitVec 4) (m : Byte) (h : i.toNat ≤ 7) : Decodes (opWord 0x7 i m) (.key i m)
  | joy (p : PortSel) (m : Byte) : Decodes (opWord 0x8 p.code m) (.joy p m)

theorem decodeCtl_ok {i j : Instr} {n : BitVec 4} {d : Byte} (h : decodeCtl i n d = .ok j) : n = 0 ∧ d = 0 ∧ i = j := by
  unfold decodeCtl at h
  split at h
  · rename_i hz
    cases h
    exact ⟨hz.1, hz.2, rfl⟩
  · cases h

theorem decodePin_ok {i : Instr} {n : BitVec 4} {d : Byte} (h : decodePin n d = .ok i) :
    ∃ p l, n = PinSel.code p ∧ d = (if l then 1 else 0) ∧ i = .pin p l := by
  unfold decodePin at h
  split_ifs at h with hd h0 h1 <;> cases h
  · exact ⟨.cnt, _, h0, by rcases hd with rfl | rfl <;> rfl, rfl⟩
  · exact ⟨.flag, _, h1, by rcases hd with rfl | rfl <;> rfl, rfl⟩

theorem decodePortin_ok {i : Instr} {n : BitVec 4} {d : Byte} (h : decodePortin n d = .ok i) :
    ∃ p, n = PortSel.code p ∧ i = .portin p d := by
  unfold decodePortin at h
  split_ifs at h with h0 h1 <;> cases h
  · exact ⟨.a, h0, rfl⟩
  · exact ⟨.b, h1, rfl⟩

theorem decodeKey_ok {i : Instr} {n : BitVec 4} {d : Byte} (h : decodeKey n d = .ok i) :
    n.toNat ≤ 7 ∧ i = .key n d := by
  unfold decodeKey at h
  split_ifs at h with hn
  cases h
  exact ⟨hn, rfl⟩

theorem decodeJoy_ok {i : Instr} {n : BitVec 4} {d : Byte} (h : decodeJoy n d = .ok i) :
    ∃ p, n = PortSel.code p ∧ i = .joy p d := by
  unfold decodeJoy at h
  split_ifs at h with h0 h1 <;> cases h
  · exact ⟨.a, h0, rfl⟩
  · exact ⟨.b, h1, rfl⟩

/-- Inversion of the decoder, class by class. -/
theorem decodes_of_decode {w : OpWord} {i : Instr} (h : decode w = .ok i) : Decodes w i := by
  rw [← opWord_fields w]
  unfold decode at h
  split at h <;> rename_i hc
  · rw [hc]; cases h; exact .read _ _
  · rw [hc]; cases h; exact .write _ _
  · obtain ⟨hn, hd, rfl⟩ := decodeCtl_ok h
    rw [hc, hn, hd]; exact .clk
  · obtain ⟨hn, hd, rfl⟩ := decodeCtl_ok h
    rw [hc, hn, hd]; exact .tod
  · obtain ⟨hn, hd, rfl⟩ := decodeCtl_ok h
    rw [hc, hn, hd]; exact .rst
  · obtain ⟨p, l, hn, hd, rfl⟩ := decodePin_ok h
    rw [hc, hn, hd]; exact .pin p l
  · obtain ⟨p, hn, rfl⟩ := decodePortin_ok h
    rw [hc, hn]; exact .portin p _
  · obtain ⟨hn, rfl⟩ := decodeKey_ok h
    rw [hc]; exact .key _ _ hn
  · obtain ⟨p, hn, rfl⟩ := decodeJoy_ok h
    rw [hc, hn]; exact .joy p _
  · cases h

/-- A word of the table decodes to its operation. -/
theorem Decodes.decode_eq {w : OpWord} {i : Instr} (h : Decodes w i) : decode w = .ok i := by
  cases h with
  | read | write | clk | tod | rst => simp [decode, decodeCtl]
  | pin p l => cases p <;> cases l <;> rfl
  | portin p v => cases p <;> simp [decode, decodePortin, PortSel.code]
  | key i m hi => simp [decode, decodeKey, hi]
  | joy p m => cases p <;> simp [decode, decodeJoy, PortSel.code]

/-- The canonical word of an operation is one of its words. -/
theorem decodes_encode {i : Instr} (h : i.wellFormed = true) : Decodes (encode i) i := by
  cases i with
  | wPra v | wPrb v | wDdra v | wDdrb v | wTalo v | wTahi v | wTblo v | wTbhi v
  | wTod10 v | wTodsec v | wTodmin v | wTodhr v | wSdr v | wIcr v | wCra v | wCrb v => exact .write _ v
  | clk => exact .clk
  | tod => exact .tod
  | rst => exact .rst
  | pin p l => exact .pin p l
  | portin p v => exact .portin p v
  | key l m => exact .key l m (of_decide_eq_true h)
  | joy p m => exact .joy p m
  | _ => exact .read _ 0

/-- Settles O2: the canonical word stands in the table of rule R81 beside its operation, and the decoder follows the
table. -/
theorem decodeOfEncodeIsIdentity : Obligations.DecodeOfEncodeIsIdentity :=
  fun _ h => (decodes_encode h).decode_eq

/-- Only operations have words. -/
theorem Decodes.wellFormed {w : OpWord} {i : Instr} (h : Decodes w i) : i.wellFormed = true := by
  cases h with
  | read => exact wellFormed_readInstr _
  | write => exact wellFormed_writeInstr _ _
  | key i m hi => exact decide_eq_true hi
  | _ => rfl

theorem opWord_and (c n c' n' : BitVec 4) (d d' : Byte) :
    opWord c n d &&& opWord c' n' d' = opWord (c &&& c') (n &&& n') (d &&& d') := by
  change (c ++ n ++ d) &&& (c' ++ n' ++ d') = (c &&& c') ++ (n &&& n') ++ (d &&& d')
  rw [BitVec.and_append, BitVec.and_append]

/-- A read's canonical word has zeros for the data field. -/
theorem opWord_and_upper (c n : BitVec 4) (d : Byte) : opWord c n d &&& 0xFF00 = opWord c n 0 := by
  have hMask : (0xFF00 : OpWord) = opWord (BitVec.allOnes 4) (BitVec.allOnes 4) 0 := rfl
  rw [hMask, opWord_and, BitVec.and_allOnes, BitVec.and_allOnes, BitVec.ofNat_eq_ofNat, BitVec.and_zero]

theorem opWord_toNat_div (c n : BitVec 4) (d : Byte) : (opWord c n d).toNat / 4096 = c.toNat := by
  rw [← opClass_toNat, opClass_opWord]

/-- Outside class 0 a word that decodes is canonical; in class 0 all words of a register decode alike. -/
theorem Decodes.encode_eq {w : OpWord} {i : Instr} (h : Decodes w i) :
    encode i = if w.toNat / 4096 = 0 then w &&& 0xFF00 else w := by
  cases h with
  | read n d => rw [encode_readInstr, Reg.addr_ofAddr, opWord_toNat_div, opWord_and_upper, if_pos (by decide)]
  | write n v => rw [encode_writeInstr, Reg.addr_ofAddr, opWord_toNat_div, if_neg (by decide)]
  | _ => rw [opWord_toNat_div, if_neg (by decide)]; rfl

/-- Settles O3: by the table of rule R81, a word that decodes gives an operation, and only class 0 ignores a field. -/
theorem encodeOfDecodeIsCanonical : Obligations.EncodeOfDecodeIsCanonical :=
  fun _ _ h => ⟨(decodes_of_decode h).wellFormed, (decodes_of_decode h).encode_eq⟩

/-- Settles O1: each word is written out, and the decoder computes. -/
theorem specWordsDecodeAsWritten : Obligations.SpecWordsDecodeAsWritten := by
  unfold Obligations.SpecWordsDecodeAsWritten
  decide

/-! ### The words that are rejected -/

/-- The words that rule R93 lists under each name, by class, sel and data. -/
def DecodeError.Lists (e : DecodeError) (c n d : Nat) : Prop :=
  match e with
  | .reservedClass => 9 ≤ c
  | .ctlOperand => (c = 2 ∨ c = 3 ∨ c = 4) ∧ (n ≠ 0 ∨ d ≠ 0)
  | .pinOperand => c = 5 ∧ (1 < n ∨ 1 < d)
  | .portSelector => c = 6 ∧ 1 < n
  | .keyLine => c = 7 ∧ 7 < n
  | .joySelector => c = 8 ∧ 1 < n

/-- A test that a rejected word has failed. -/
theorem ite_ok_eq_error_iff {c : Prop} [Decidable c] {i : Instr} {o : Except DecodeError Instr} {e : DecodeError} :
    (if c then .ok i else o) = .error e ↔ ¬c ∧ o = .error e := by
  split_ifs with h <;> simp [h]

/-- The selectors of `PIN`, `PORTIN` and `JOY`, and the data of `PIN`, are 0 and 1. -/
theorem one_lt_toNat_iff {w : Nat} (hw : 0 < w) (n : BitVec w) : 1 < n.toNat ↔ n ≠ 0 ∧ n ≠ 1 := by
  have h1 : 1 < 2 ^ w := Nat.one_lt_two_pow (by omega)
  simp only [ne_eq, ← BitVec.toNat_inj, BitVec.ofNat_eq_ofNat, BitVec.toNat_ofNat, Nat.zero_mod, Nat.mod_eq_of_lt h1]
  omega

theorem decodeCtl_eq_error_iff {i : Instr} {n : BitVec 4} {d : Byte} {e : DecodeError} :
    decodeCtl i n d = .error e ↔ (n.toNat ≠ 0 ∨ d.toNat ≠ 0) ∧ .ctlOperand = e := by
  rw [decodeCtl, ite_ok_eq_error_iff, Except.error.injEq, not_and_or]
  simp only [ne_eq, ← BitVec.toNat_inj, BitVec.ofNat_eq_ofNat, BitVec.toNat_ofNat, Nat.zero_mod]

theorem decodePin_eq_error_iff {n : BitVec 4} {d : Byte} {e : DecodeError} :
    decodePin n d = .error e ↔ (1 < n.toNat ∨ 1 < d.toNat) ∧ .pinOperand = e := by
  rw [one_lt_toNat_iff (by decide), one_lt_toNat_iff (by decide), decodePin]
  by_cases hd : d = 0 ∨ d = 1
  · rw [if_pos hd, ite_ok_eq_error_iff, ite_ok_eq_error_iff, Except.error.injEq]
    tauto
  · rw [if_neg hd, Except.error.injEq]
    tauto

theorem decodePortin_eq_error_iff {n : BitVec 4} {d : Byte} {e : DecodeError} :
    decodePortin n d = .error e ↔ 1 < n.toNat ∧ .portSelector = e := by
  rw [one_lt_toNat_iff (by decide), decodePortin, ite_ok_eq_error_iff, ite_ok_eq_error_iff, Except.error.injEq, and_assoc]

theorem decodeKey_eq_error_iff {n : BitVec 4} {d : Byte} {e : DecodeError} :
    decodeKey n d = .error e ↔ 7 < n.toNat ∧ .keyLine = e := by
  rw [decodeKey, ite_ok_eq_error_iff, Except.error.injEq, not_le]

theorem decodeJoy_eq_error_iff {n : BitVec 4} {d : Byte} {e : DecodeError} :
    decodeJoy n d = .error e ↔ 1 < n.toNat ∧ .joySelector = e := by
  rw [one_lt_toNat_iff (by decide), decodeJoy, ite_ok_eq_error_iff, ite_ok_eq_error_iff, Except.error.injEq, and_assoc]

/-- The decoder rejects exactly the words that rule R93 lists, each under its name. -/
theorem decode_eq_error_iff (w : OpWord) (e : DecodeError) :
    decode w = .error e ↔ e.Lists (w.toNat / 4096) (w.toNat / 256 % 16) (w.toNat % 256) := by
  rw [← opClass_toNat, ← opSel_toNat, ← opData_toNat, decode]
  split
  · rename_i hc; rw [hc]; cases e <;> simp [DecodeError.Lists]
  · rename_i hc; rw [hc]; cases e <;> simp [DecodeError.Lists]
  · rename_i hc; rw [hc, decodeCtl_eq_error_iff]; cases e <;> simp [DecodeError.Lists]
  · rename_i hc; rw [hc, decodeCtl_eq_error_iff]; cases e <;> simp [DecodeError.Lists]
  · rename_i hc; rw [hc, decodeCtl_eq_error_iff]; cases e <;> simp [DecodeError.Lists]
  · rename_i hc; rw [hc, decodePin_eq_error_iff]; cases e <;> simp [DecodeError.Lists]
  · rename_i hc; rw [hc, decodePortin_eq_error_iff]; cases e <;> simp [DecodeError.Lists]
  · rename_i hc; rw [hc, decodeKey_eq_error_iff]; cases e <;> simp [DecodeError.Lists]
  · rename_i hc; rw [hc, decodeJoy_eq_error_iff]; cases e <;> simp [DecodeError.Lists]
  · rename_i h0 h1 h2 h3 h4 h5 h6 h7 h8
    have hc : 9 ≤ (opClass w).toNat := by
      generalize opClass w = c at *
      revert c
      decide
    cases e <;> simp [DecodeError.Lists] <;> omega

/-- Settles O4: the six names are the six cases of the decoder's error lemma. -/
theorem rejectedWordsAreExactlyTheListed : Obligations.RejectedWordsAreExactlyTheListed := fun w =>
  ⟨decode_eq_error_iff w _, decode_eq_error_iff w _, decode_eq_error_iff w _, decode_eq_error_iff w _,
    decode_eq_error_iff w _, decode_eq_error_iff w _⟩

/-! ### The opcode table -/

theorem OpcodeRow.covers_iff (r : OpcodeRow) (w : OpWord) : r.covers w = true ↔ w &&& r.mask = r.bits := by
  rw [OpcodeRow.covers, beq_iff_eq]

/-- No two rows agree on the bits that both look at. -/
theorem opcodeRows_disjoint :
    ∀ r ∈ opcodeRows, ∀ q ∈ opcodeRows, r.bits &&& q.mask = q.bits &&& r.mask → r = q := by
  decide

theorem opcodeRows_mnemonic_injective :
    ∀ r ∈ opcodeRows, ∀ q ∈ opcodeRows, r.mnemonic = q.mnemonic → r = q := by
  decide

/-- A word is covered by one row at most. -/
theorem covers_unique {r q : OpcodeRow} (hr : r ∈ opcodeRows) (hq : q ∈ opcodeRows) {w : OpWord}
    (hrw : r.covers w = true) (hqw : q.covers w = true) : r = q := by
  rw [OpcodeRow.covers_iff] at hrw hqw
  refine opcodeRows_disjoint r hr q hq ?_
  rw [← hrw, ← hqw, BitVec.and_assoc, BitVec.and_assoc, BitVec.and_comm r.mask]

/-- The row of a bus operation looks at class and sel only. -/
theorem covers_opWord (name : String) (c n : BitVec 4) (d : Byte) :
    OpcodeRow.covers ⟨name, opWord c n 0, 0xFF00⟩ (opWord c n d) = true := by
  rw [OpcodeRow.covers_iff]
  exact opWord_and_upper c n d

/-- An operation's words are covered by the row of its mnemonic. -/
theorem Decodes.covered {w : OpWord} {i : Instr} (h : Decodes w i) :
    ∃ r ∈ opcodeRows, r.mnemonic = i.mnemonic ∧ r.covers w = true := by
  cases h with
  | read n d =>
    refine ⟨⟨(readInstr (Reg.ofAddr n)).mnemonic, opWord 0x0 n 0, 0xFF00⟩, ?_, rfl, covers_opWord _ _ n d⟩
    revert n
    decide
  | write n v =>
    refine ⟨⟨(writeInstr (Reg.ofAddr n) 0).mnemonic, opWord 0x1 n 0, 0xFF00⟩, ?_, ?_, covers_opWord _ _ n v⟩
    · revert n
      decide
    · cases Reg.ofAddr n <;> rfl
  | clk => exact Laws.OpcodeRow.clk rfl
  | tod => exact Laws.OpcodeRow.tod rfl
  | rst => exact Laws.OpcodeRow.rst rfl
  | pin p l => exact Laws.OpcodeRow.pin p l rfl
  | portin p v => exact Laws.OpcodeRow.portin p v rfl
  | key i m hi => exact Laws.OpcodeRow.key i m (decide_eq_true hi)
  | joy p m => exact Laws.OpcodeRow.joy p m rfl

/-- A row covers a word field by field. -/
theorem covers_fields {r : OpcodeRow} {w : OpWord} (h : r.covers w = true) :
    opClass w &&& opClass r.mask = opClass r.bits ∧ opSel w &&& opSel r.mask = opSel r.bits ∧
      opData w &&& opData r.mask = opData r.bits := by
  rw [← (r.covers_iff w).1 h]
  exact ⟨BitVec.extractLsb'_and.symm, BitVec.extractLsb'_and.symm, BitVec.extractLsb'_and.symm⟩

theorem opcodeRows_class_mask : ∀ r ∈ opcodeRows, opClass r.mask = BitVec.allOnes 4 := by
  decide

theorem busReadRows_class : ∀ r ∈ busReadRows, opClass r.bits = 0x0 := by
  decide

theorem busWriteRows_class : ∀ r ∈ busWriteRows, opClass r.bits = 0x1 := by
  decide

theorem eq_zero_or_one_of_sel_mask : ∀ n : BitVec 4, n &&& 0xE = 0 → n = 0 ∨ n = 1 := by
  decide

theorem eq_zero_or_one_of_data_mask : ∀ d : Byte, d &&& 0xFE = 0 → d = 0 ∨ d = 1 := by
  decide

theorem le_seven_of_key_mask : ∀ n : BitVec 4, n &&& 0x8 = 0 → n.toNat ≤ 7 := by
  decide

/-- A word covered by a row stands for an operation. -/
theorem decodes_of_covers {r : OpcodeRow} (hr : r ∈ opcodeRows) {w : OpWord} (h : r.covers w = true) :
    ∃ i, Decodes w i := by
  obtain ⟨hc, hn, hd⟩ := covers_fields h
  rw [opcodeRows_class_mask r hr, BitVec.and_allOnes] at hc
  rw [← opWord_fields w, hc]
  rw [opcodeRows, List.mem_append, List.mem_append] at hr
  rcases hr with (hr | hr) | hr
  · rw [busReadRows_class r hr]
    exact ⟨_, .read _ _⟩
  · rw [busWriteRows_class r hr]
    exact ⟨_, .write _ _⟩
  · simp only [ctlEnvRows, List.mem_cons, List.not_mem_nil, or_false] at hr
    rcases hr with rfl | rfl | rfl | rfl | rfl | rfl | rfl
    · rw [BitVec.and_allOnes.symm.trans hn, BitVec.and_allOnes.symm.trans hd]
      exact ⟨_, .clk⟩
    · rw [BitVec.and_allOnes.symm.trans hn, BitVec.and_allOnes.symm.trans hd]
      exact ⟨_, .tod⟩
    · rw [BitVec.and_allOnes.symm.trans hn, BitVec.and_allOnes.symm.trans hd]
      exact ⟨_, .rst⟩
    · rcases eq_zero_or_one_of_sel_mask _ hn with hn | hn <;> rcases eq_zero_or_one_of_data_mask _ hd with hd | hd <;>
        rw [hn, hd]
      · exact ⟨_, .pin .cnt false⟩
      · exact ⟨_, .pin .cnt true⟩
      · exact ⟨_, .pin .flag false⟩
      · exact ⟨_, .pin .flag true⟩
    · rcases eq_zero_or_one_of_sel_mask _ hn with hn | hn <;> rw [hn]
      · exact ⟨_, .portin .a _⟩
      · exact ⟨_, .portin .b _⟩
    · exact ⟨_, .key _ _ (le_seven_of_key_mask _ hn)⟩
    · rcases eq_zero_or_one_of_sel_mask _ hn with hn | hn <;> rw [hn]
      · exact ⟨_, .joy .a _⟩
      · exact ⟨_, .joy .b _⟩

/-- Settles O5: a word that decodes is covered by the row of its mnemonic, hence by no other, and a word that any row
covers decodes. -/
theorem decoderAgreesWithOpcodeTable : Obligations.DecoderAgreesWithOpcodeTable := by
  refine fun w => ⟨fun i hi r hr => ?_, fun e he r hr => ?_⟩
  · obtain ⟨q, hq, hName, hCovers⟩ := (decodes_of_decode hi).covered
    constructor
    · intro h
      rw [covers_unique hr hq h hCovers, hName]
    · intro h
      rwa [opcodeRows_mnemonic_injective r hr q hq (h.trans hName.symm)]
  · by_contra h
    obtain ⟨i, hi⟩ := decodes_of_covers hr (Bool.eq_true_of_not_eq_false h)
    rw [hi.decode_eq] at he
    cases he

end Sys2Proof
end

section
/-! The step and the invariants (spec/00_scope.md rule R5, spec/10_state.md rule R39): what a step does with the driver's
next word, that a constructed chip is in the reset state and meets the invariants, and that every step keeps them. -/

namespace Sys2Proof.Machine

/-! ### The step -/

/-- Settles O6: `step` takes the word, and `State.issued` is the state in which its operation runs. -/
theorem stepRunsTheDecodedOperation : Obligations.StepRunsTheDecodedOperation := by
  intro s w rest i hp hd
  simp only [step, hp, hd]
  rfl

/-- Settles O7: the two branches of `step` that run nothing. -/
theorem stepWithoutAnOperation : Obligations.StepWithoutAnOperation := by
  refine fun s => ⟨fun w rest e hp hd => ?_, fun hp => ?_⟩
  · simp only [step, hp, hd]
  · simp only [step, hp]

theorem decode_of_decodeTableWord {nbits w : Nat} {i : Instr} (h : decodeTableWord nbits w = some i) :
    decode (BitVec.ofNat 16 (w % 2 ^ nbits)) = .ok i := by
  unfold decodeTableWord at h
  cases hd : decode (BitVec.ofNat 16 (w % 2 ^ nbits)) with
  | ok j => rw [hd] at h; cases h; rfl
  | error e => rw [hd] at h; cases h

/-- Settles O8: the placed word is the head of `pending`, and the step takes it off again. -/
theorem placedWordRunsNext : Obligations.PlacedWordRunsNext := fun s nbits w i h =>
  stepRunsTheDecodedOperation (s.withFetchWord nbits w) _ s.pending i rfl (decode_of_decodeTableWord h)

/-! ### The bits of the ICR (invariant 1 of rule R39) -/

/-- Only the bits that rule R39 allows are set. -/
structure Icr.LegalBits (r : Icr) : Prop where
  event : r.event &&& 0xE8 = 0
  mask : r.mask &&& 0x80 = 0

theorem Icr.LegalBits.setEvent {r : Icr} (h : r.LegalBits) (e : Event) : (r.setEvent e).LegalBits where
  event := by
    have hBit : BitVec.twoPow 8 e.bit &&& 0xE8 = 0 := by cases e <;> rfl
    rw [Icr.setEvent, BitVec.and_comm, BitVec.and_or_distrib_left, BitVec.and_comm, h.event, BitVec.and_comm, hBit]
    rfl
  mask := h.mask

theorem Icr.LegalBits.recordIf {r : Icr} (h : r.LegalBits) (b : Bool) (e : Event) : (r.recordIf b e).LegalBits := by
  cases b
  · exact h
  · exact h.setEvent e

theorem and_bit7_eq_zero_iff : ∀ m : Byte, m &&& 0x80 = 0 ↔ m.getLsbD 7 = false := by
  decide

theorem Icr.LegalBits.updateMask {r : Icr} (h : r.LegalBits) (v : Byte) : (r.updateMask v).LegalBits where
  event := h.event
  mask := by
    rw [and_bit7_eq_zero_iff, Icr.updateMask_mask_bit_seven]
    exact (and_bit7_eq_zero_iff r.mask).1 h.mask

theorem Icr.LegalBits.clearEvents {r : Icr} (h : r.LegalBits) : r.clearEvents.LegalBits where
  event := BitVec.zero_and
  mask := h.mask

theorem icrAtReset_legalBits : icrAtReset.LegalBits where
  event := by decide
  mask := by decide

/-! ### A constructed chip -/

theorem keysReleased_getElem (i : Fin 8) : keysReleased[i] = 0x00 := by
  simp [keysReleased]

/-- Construction establishes what `RST` does: no source holds the line and every register has its reset value already. -/
theorem State.resetChip_constructed (cfg : Config) (tod : TodInit) :
    (State.constructed cfg tod).resetChip = State.constructed cfg tod := by
  rcases cfg with ⟨_ | _⟩ <;> rfl

/-- Settles O10: `RST` finds nothing to change, and the other fields stand in `State.constructed`. -/
theorem constructedChipIsInTheResetState : Obligations.ConstructedChipIsInTheResetState := by
  constructor
  · intro cfg tod
    exact ⟨congrArg (Host.Outcome.next : State → Out) (State.resetChip_constructed cfg tod), rfl, rfl, rfl,
      keysReleased_getElem, rfl, rfl, rfl, rfl⟩
  · exact ⟨configStandard, todInitStandard, rfl, rfl, rfl, rfl, rfl, rfl, rfl, rfl⟩

/-- No event is recorded, no source is in a line, and the time of day is that of `TOD_INIT`. -/
theorem State.constructed_inv (cfg : Config) {tod : TodInit} (h : tod.InRange) : (State.constructed cfg tod).Inv where
  event_bits := icrAtReset_legalBits.event
  mask_bit7 := icrAtReset_legalBits.mask
  line_iff := by rcases cfg with ⟨_ | _⟩ <;> simp [State.constructed, State.line, lineReleased]
  ir_line h := absurd h (by decide : ¬icrAtReset.ir = true)
  clock_rng := h.clock
  alarm_rng := h.alarm
  irq_set := List.Pairwise.nil
  nmi_set := List.Pairwise.nil

theorem todInitStandard_inRange : todInitStandard.InRange where
  clock := by constructor <;> decide
  alarm := by constructor <;> decide

/-- Settles O11: the machine's reset state is the constructed chip of a legal `TOD_INIT`. -/
theorem constructedChipMeetsTheInvariants : Obligations.ConstructedChipMeetsTheInvariants :=
  ⟨fun cfg _ h => State.constructed_inv cfg h, State.constructed_inv configStandard todInitStandard_inRange⟩

/-! ### What keeps the invariants -/

theorem State.Inv.legalBits {s : State} (h : s.Inv) : s.icr.LegalBits where
  event := h.event_bits
  mask := h.mask_bit7

/-- A change outside the interrupt output keeps the invariants when it keeps the ranges of clock and alarm. -/
theorem State.Inv.of_output_kept {s t : State} (h : s.Inv) (hCfg : t.cfg = s.cfg) (hIcr : t.icr = s.icr)
    (hKept : OutputKept s t) (hClock : t.clock.InRange) (hAlarm : t.alarm.InRange) : t.Inv where
  event_bits := hIcr ▸ h.event_bits
  mask_bit7 := hIcr ▸ h.mask_bit7
  line_iff := by
    have hLine : t.line = s.line := by simp only [State.line, hCfg, hKept.irq, hKept.nmi]
    rw [hLine, hCfg, hKept.output]
    exact h.line_iff
  ir_line := by
    rw [hIcr, hKept.output]
    exact h.ir_line
  clock_rng := hClock
  alarm_rng := hAlarm
  irq_set := hKept.irq ▸ h.irq_set
  nmi_set := hKept.nmi ▸ h.nmi_set

/-- Another clock and alarm in their ranges keep the invariants. -/
theorem State.Inv.with_tod {s : State} (h : s.Inv) {c : Clock} {a : Alarm} (hClock : c.InRange) (hAlarm : a.InRange) :
    State.Inv { s with clock := c, alarm := a } :=
  h.of_output_kept rfl rfl ⟨rfl, rfl, rfl⟩ hClock hAlarm

/-- A change that ends in the check keeps the invariants, whatever request it makes, if the ICR keeps its legal bits. -/
theorem State.Inv.of_irqCheck {s t : State} (h : s.Inv) (hCfg : t.cfg = s.cfg) (hIcr : t.icr.LegalBits)
    (hKept : OutputKept s t) (hClock : t.clock.InRange) (hAlarm : t.alarm.InRange) : t.irqCheck.Inv where
  event_bits := by
    rw [State.irqCheck_icr]
    exact hIcr.event
  mask_bit7 := by
    rw [State.irqCheck_icr]
    exact hIcr.mask
  line_iff := by
    have hChecked := State.irqCheck_checked hKept.output hCfg hKept.irq hKept.nmi
    have hMono : s.intTriggered = true → t.irqCheck.intTriggered = true := fun ho => hChecked.output.2 (.inl ho)
    rw [State.irqCheck_cfg, hCfg, hChecked.line, h.line_iff]
    cases ho : s.intTriggered
    · simp
    · simp [hMono ho]
  ir_line := by
    rw [State.irqCheck_icr, State.irqCheck_output]
    intro hr
    rw [hr, Bool.or_true]
  clock_rng := by rwa [State.irqCheck_clock]
  alarm_rng := by rwa [State.irqCheck_alarm]
  irq_set := (State.irqCheck_sorted (hKept.irq ▸ h.irq_set) (hKept.nmi ▸ h.nmi_set)).1
  nmi_set := (State.irqCheck_sorted (hKept.irq ▸ h.irq_set) (hKept.nmi ▸ h.nmi_set)).2

/-- A change that clears the events and releases the line keeps the invariants. -/
theorem State.Inv.of_lineClear {s t : State} (h : s.Inv) (hCfg : t.cfg = s.cfg) (hEvent : t.icr.event = 0)
    (hMask : t.icr.mask &&& 0x80 = 0) (hOut : t.intTriggered = false) (hIrq : t.irq = s.lineClear.irq)
    (hNmi : t.nmi = s.lineClear.nmi) (hClock : t.clock = s.clock) (hAlarm : t.alarm = s.alarm) : t.Inv where
  event_bits := by
    rw [hEvent]
    rfl
  mask_bit7 := hMask
  line_iff := by
    have hLine : t.line = s.lineClear.line := by simp only [State.line, hCfg, hIrq, hNmi, State.lineClear_cfg]
    rw [hLine, hCfg, s.lineClear_line, hOut]
    simp
  ir_line := by simp [Icr.ir, hEvent]
  clock_rng := hClock ▸ h.clock_rng
  alarm_rng := hAlarm ▸ h.alarm_rng
  irq_set := hIrq ▸ (State.lineClear_sorted h.irq_set h.nmi_set).1
  nmi_set := hNmi ▸ (State.lineClear_sorted h.irq_set h.nmi_set).2

theorem State.advance_legalBits {s : State} (h : s.icr.LegalBits) : s.advance.icr.LegalBits :=
  ((h.recordIf _ .timerA).recordIf _ .timerB).recordIf _ .flag

/-- An operation keeps the invariants: by the forms of `Effect`, most leave the interrupt output alone, and the others
check or release it. A time-of-day write stores a value of its field's range. -/
theorem Effect.keeps_inv {i : Instr} {s t : State} (h : Effect i s t) (hs : s.Inv) : t.Inv := by
  have hClock := hs.clock_rng
  have hAlarm := hs.alarm_rng
  cases h with
  | wTod10Alarm v s n hv => exact hs.with_tod hClock { hAlarm with tenths := tenthsValue_range hv }
  | wTod10Clock v s n hv => exact hs.with_tod { hClock with tenths := tenthsValue_range hv } hAlarm
  | wTodsecAlarm v s n hv => exact hs.with_tod hClock { hAlarm with seconds := secondsValue_range hv }
  | wTodsecClock v s n hv => exact hs.with_tod { hClock with seconds := secondsValue_range hv } hAlarm
  | wTodminAlarm v s n hv => exact hs.with_tod hClock { hAlarm with minutes := minutesValue_range hv }
  | wTodminClock v s n hv => exact hs.with_tod { hClock with minutes := minutesValue_range hv } hAlarm
  | wTodhrAlarm v s n hv =>
    obtain ⟨hLo, hHi⟩ := hoursValue_range hv
    exact hs.with_tod { hClock with } { hAlarm with hours_lo := hLo, hours_hi := hHi }
  | wTodhrClock v s n hv =>
    obtain ⟨hLo, hHi⟩ := hoursValue_range hv
    exact hs.with_tod { hClock with hours_lo := hLo, hours_hi := hHi } hAlarm
  | rTod10 => exact hs.of_output_kept rfl rfl ⟨rfl, rfl, rfl⟩ { hClock with } hAlarm
  | todNoMatch => exact hs.with_tod (Clock.tick_inRange hClock) hAlarm
  | todMatch =>
    exact hs.of_irqCheck rfl (hs.legalBits.setEvent .alarm) ⟨rfl, rfl, rfl⟩ (Clock.tick_inRange hClock) hAlarm
  | clk => exact hs.of_irqCheck rfl (State.advance_legalBits hs.legalBits) ⟨rfl, rfl, rfl⟩ hClock hAlarm
  | wIcr v => exact hs.of_irqCheck rfl (hs.legalBits.updateMask v) ⟨rfl, rfl, rfl⟩ hClock hAlarm
  | rIcr => exact hs.of_lineClear s.acknowledge_cfg rfl hs.mask_bit7 rfl rfl rfl s.acknowledge_clock s.acknowledge_alarm
  | rst =>
    exact hs.of_lineClear s.resetChip_cfg rfl icrAtReset_legalBits.mask rfl rfl rfl s.resetChip_clock s.resetChip_alarm
  | _ => exact hs.of_output_kept rfl rfl ⟨rfl, rfl, rfl⟩ hClock hAlarm

/-- Settles O12: a step runs nothing, or an operation from a state that differs in the model's own two fields only. -/
theorem stepKeepsTheInvariants : Obligations.StepKeepsTheInvariants := by
  intro s t hs h
  rcases step_cases h with ⟨_, rfl⟩ | ⟨w, rest, i, _, _, hx⟩
  · exact hs
  · have hIssued : (s.issued rest).Inv := hs.of_output_kept rfl rfl ⟨rfl, rfl, rfl⟩ hs.clock_rng hs.alarm_rng
    exact (exec_effect hx).keeps_inv hIssued

end Sys2Proof.Machine
end

section
/-! Where an operation stops (spec/60_exceptions.md rules R270 to R274): every outcome of a well-formed operation is a next
state or one of the two stops that the spec names. -/

namespace Sys2Proof.Machine

/-- A write of a time-of-day register with data outside rule R85. -/
def IllegalTodWrite : Instr → Prop
  | .wTod10 v => 9 < v.toNat
  | .wTodsec v | .wTodmin v => 5 < v.toNat / 16 ∨ 9 < v.toNat % 16
  | .wTodhr v => ¬((1 ≤ v.toNat % 128 ∧ v.toNat % 128 ≤ 9) ∨ (16 ≤ v.toNat % 128 ∧ v.toNat % 128 ≤ 18))
  | _ => False

/-- What a time-of-day write without a value says of its byte and of the parameters (rule R212). -/
theorem tenthsValue_none {k : TodIllegal} {v : Byte} (h : tenthsValue k v = none) : k = .refused ∧ 9 < v.toNat := by
  obtain ⟨hLegal, hk⟩ := todValue_none h
  exact ⟨hk, not_le.1 (mt (tenthsLegal_iff v).2 (by simp [hLegal]))⟩

theorem todValue_sixty_none {k : TodIllegal} {a : RegAddr} {v : Byte} {l p : Nat}
    (h : todValue k (sixtyLegal v) v a v l p = none) : k = .refused ∧ (5 < v.toNat / 16 ∨ 9 < v.toNat % 16) := by
  obtain ⟨hLegal, hk⟩ := todValue_none h
  have hDigits := mt (sixtyLegal_iff v).2 (by simp [hLegal])
  exact ⟨hk, by omega⟩

theorem hoursValue_none {k : TodIllegal} {v : Byte} (h : hoursValue k v = none) :
    k = .refused ∧ IllegalTodWrite (.wTodhr v) := by
  obtain ⟨hLegal, hk⟩ := todValue_none h
  exact ⟨hk, mt (hoursLegal_iff v).2 (by simp [hLegal])⟩

/-- Everything a well-formed operation can come to. -/
theorem exec_outcomes (i : Instr) (s : State) (hw : i.wellFormed = true) :
    (∃ t, exec i s = .next t) ∨
    (exec i s = .fault .malformedInputSelector ∧
      ∃ v, i = .wCrb v ∧ crbDecode s.cfg.crbInputDecode (crbSelector v) = none) ∨
    (exec i s = .refused .todIllegalValue ∧ s.cfg.todIllegal = .refused ∧ IllegalTodWrite i) := by
  cases i with
  | wTod10 v =>
    rcases execWTod10_cases v s with ⟨_, _, h⟩ | ⟨hv, h⟩
    · exact .inl ⟨_, h⟩
    · exact .inr (.inr ⟨h, tenthsValue_none hv⟩)
  | wTodsec v =>
    rcases execWTodsec_cases v s with ⟨_, _, h⟩ | ⟨hv, h⟩
    · exact .inl ⟨_, h⟩
    · exact .inr (.inr ⟨h, todValue_sixty_none hv⟩)
  | wTodmin v =>
    rcases execWTodmin_cases v s with ⟨_, _, h⟩ | ⟨hv, h⟩
    · exact .inl ⟨_, h⟩
    · exact .inr (.inr ⟨h, todValue_sixty_none hv⟩)
  | wTodhr v =>
    rcases execWTodhr_cases v s with ⟨_, _, h⟩ | ⟨hv, h⟩
    · exact .inl ⟨_, h⟩
    · exact .inr (.inr ⟨h, hoursValue_none hv⟩)
  | wCrb v =>
    rcases execWCrb_cases v s with ⟨_, _, h⟩ | ⟨hd, h⟩
    · exact .inl ⟨_, h⟩
    · exact .inr (.inl ⟨h, v, rfl, hd⟩)
  | key l m =>
    rcases execKey_cases l m s with ⟨_, h⟩ | ⟨hl, _⟩
    · exact .inl ⟨_, h⟩
    · exact absurd (of_decide_eq_true hw) (by omega)
  | pin p l => cases p <;> exact .inl ⟨_, rfl⟩
  | portin p v => cases p <;> exact .inl ⟨_, rfl⟩
  | joy p m => cases p <;> exact .inl ⟨_, rfl⟩
  | _ => exact .inl ⟨_, rfl⟩

/-- Settles O13: the hypotheses rule out both stops. -/
theorem operationsAreTotal : Obligations.OperationsAreTotal := by
  intro i s hw hSelectors hLegal
  rcases exec_outcomes i s hw with h | ⟨_, v, _, hNone⟩ | ⟨_, hk, hIllegal⟩
  · exact h
  · have hSome := hSelectors (crbSelector v)
    rw [hNone] at hSome
    cases hSome
  · obtain ⟨hTenths, hSixty, hHours⟩ := hLegal hk
    exfalso
    cases i with
    | wTod10 v => exact hIllegal.not_ge (hTenths v rfl)
    | wTodsec v => have := hSixty v (.inl rfl); simp only [IllegalTodWrite] at hIllegal; omega
    | wTodmin v => have := hSixty v (.inr rfl); simp only [IllegalTodWrite] at hIllegal; omega
    | wTodhr v => exact hIllegal (hHours v rfl)
    | _ => exact hIllegal

/-- Settles O14: no other outcome is a fault or a refusal. -/
theorem onlyTheNamedStopsOccur : Obligations.OnlyTheNamedStopsOccur := by
  intro i s hw
  rcases exec_outcomes i s hw with ⟨t, h⟩ | ⟨h, hWrite⟩ | ⟨h, hk, hIllegal⟩ <;> rw [h]
  · exact ⟨nofun, nofun⟩
  · refine ⟨fun f hf => ?_, nofun⟩
    cases hf
    exact ⟨rfl, hWrite⟩
  · refine ⟨nofun, fun r hr => ?_⟩
    cases hr
    refine ⟨rfl, hk, ?_⟩
    cases i with
    | wTod10 v => exact .inl ⟨v, rfl, hIllegal⟩
    | wTodsec v => exact .inr (.inl ⟨v, .inl rfl, hIllegal⟩)
    | wTodmin v => exact .inr (.inl ⟨v, .inr rfl, hIllegal⟩)
    | wTodhr v => exact .inr (.inr ⟨v, rfl, hIllegal⟩)
    | _ => exact hIllegal.elim

end Sys2Proof.Machine
end

section
/-! Who writes a field: the environment inputs (rules R31, R307), the counters (rule R141), the events (rule R190), the
interrupt output (rule R191) and the freeze latch (rule R202), each over all operations by the forms of `Effect`. -/

namespace Sys2Proof.Machine

variable {i : Instr} {s t : State}

/-! ### The environment inputs -/

theorem Effect.keyrow_eq_or (h : Effect i s t) : t.keyrow = s.keyrow ∨ ∃ l m, i = .key l m := by
  cases h with
  | key l m => exact .inr ⟨l, m, rfl⟩
  | rIcr | wIcr | clk | todMatch | rst => left; simp
  | _ => exact .inl rfl

theorem Effect.joyA_eq_or (h : Effect i s t) : t.joyA = s.joyA ∨ ∃ m, i = .joy .a m := by
  cases h with
  | joyA m => exact .inr ⟨m, rfl⟩
  | rIcr | wIcr | clk | todMatch | rst => left; simp
  | _ => exact .inl rfl

theorem Effect.joyB_eq_or (h : Effect i s t) : t.joyB = s.joyB ∨ ∃ m, i = .joy .b m := by
  cases h with
  | joyB m => exact .inr ⟨m, rfl⟩
  | rIcr | wIcr | clk | todMatch | rst => left; simp
  | _ => exact .inl rfl

/-- Settles O26: each input stays, but under its own operation. -/
theorem environmentInputsComeOnlyFromTheEnvironment : Obligations.EnvironmentInputsComeOnlyFromTheEnvironment :=
  fun _ _ _ h => ⟨(exec_effect h).keyrow_eq_or.resolve_left, (exec_effect h).joyA_eq_or.resolve_left,
    (exec_effect h).joyB_eq_or.resolve_left⟩

/-! ### The counters -/

/-- A latch write reaches the counter of a stopped timer only, and then copies the latch (rules R143 to R146). -/
theorem Timer.reloadIfStopped_value {ι : Type} (t : Timer ι) :
    t.reloadIfStopped.value = t.value ∨ (t.reloadIfStopped.value = t.reloadIfStopped.latch ∧ t.enabled = false) := by
  unfold Timer.reloadIfStopped
  cases t.enabled
  · exact .inr ⟨rfl, rfl⟩
  · exact .inl rfl

/-- A control-register write reaches the counter with bit 4 set only, and then copies the latch (rules R151, R152). -/
theorem Timer.configure_value {ι : Type} (t : Timer ι) (v : Byte) (input : ι) :
    (t.configure v input).value = t.value ∨
      ((t.configure v input).value = (t.configure v input).latch ∧ v.getLsbD 4 = true) := by
  unfold Timer.configure
  cases v.getLsbD 4
  · exact .inl rfl
  · exact .inr ⟨rfl, rfl⟩

/-- A clock reaches the counter of a timer that counts only, which then runs, and takes one from it or reloads it. -/
theorem TimerStep.value_cases {ι : Type} {counts : Prop} {t u : Timer ι} (h : TimerStep counts t u) :
    u.value = t.value ∨ (counts ∧ if t.value = 0 then u.value = t.latch else u.value.toNat + 1 = t.value.toNat) := by
  by_cases hc : counts
  · right
    refine ⟨hc, ?_⟩
    split_ifs with hz
    · exact (h.expires hc hz).1
    · exact (h.counted hc hz).1
  · exact .inl (h.idle hc).1

/-- Everything that can happen to timer A's counter (rule R141). -/
theorem Effect.ta_value_cases (h : Effect i s t) :
    t.ta.value = s.ta.value ∨ i = .rst ∨
      (i = .clk ∧ s.ta.enabled = true ∧
        if s.ta.value = 0 then t.ta.value = s.ta.latch else t.ta.value.toNat + 1 = s.ta.value.toNat) ∨
      (t.ta.value = t.ta.latch ∧
        ((∃ v, (i = .wTalo v ∨ i = .wTahi v) ∧ s.ta.enabled = false) ∨ ∃ v, i = .wCra v ∧ v.getLsbD 4 = true)) := by
  cases h with
  | rst => exact .inr (.inl rfl)
  | clk =>
    rw [State.irqCheck_ta]
    exact s.advance_timerA.value_cases.imp_right fun ⟨hc, hv⟩ => .inr (.inl ⟨rfl, hc.1, hv⟩)
  | wTalo v =>
    exact (Timer.reloadIfStopped_value _).imp_right fun ⟨hv, he⟩ => .inr (.inr ⟨hv, .inl ⟨v, .inl rfl, he⟩⟩)
  | wTahi v =>
    exact (Timer.reloadIfStopped_value _).imp_right fun ⟨hv, he⟩ => .inr (.inr ⟨hv, .inl ⟨v, .inr rfl, he⟩⟩)
  | wCra v => exact (s.ta.configure_value v _).imp_right fun ⟨hv, h4⟩ => .inr (.inr ⟨hv, .inr ⟨v, rfl, h4⟩⟩)
  | rIcr | wIcr | todMatch => left; simp
  | _ => exact .inl rfl

/-- Everything that can happen to timer B's counter. -/
theorem Effect.tb_value_cases (h : Effect i s t) :
    t.tb.value = s.tb.value ∨ i = .rst ∨
      (i = .clk ∧ s.tb.enabled = true ∧
        if s.tb.value = 0 then t.tb.value = s.tb.latch else t.tb.value.toNat + 1 = s.tb.value.toNat) ∨
      (t.tb.value = t.tb.latch ∧
        ((∃ v, (i = .wTblo v ∨ i = .wTbhi v) ∧ s.tb.enabled = false) ∨ ∃ v, i = .wCrb v ∧ v.getLsbD 4 = true)) := by
  cases h with
  | rst => exact .inr (.inl rfl)
  | clk =>
    rw [State.irqCheck_tb]
    exact s.advance_timerB.value_cases.imp_right fun ⟨hc, hv⟩ => .inr (.inl ⟨rfl, hc.1, hv⟩)
  | wTblo v =>
    exact (Timer.reloadIfStopped_value _).imp_right fun ⟨hv, he⟩ => .inr (.inr ⟨hv, .inl ⟨v, .inl rfl, he⟩⟩)
  | wTbhi v =>
    exact (Timer.reloadIfStopped_value _).imp_right fun ⟨hv, he⟩ => .inr (.inr ⟨hv, .inl ⟨v, .inr rfl, he⟩⟩)
  | wCrb v => exact (s.tb.configure_value v _).imp_right fun ⟨hv, h4⟩ => .inr (.inr ⟨hv, .inr ⟨v, rfl, h4⟩⟩)
  | rIcr | wIcr | todMatch => left; simp
  | _ => exact .inl rfl

/-- Settles O34: the places are the cases of the two counter lemmas. -/
theorem counterChangesOnlyWhereListed : Obligations.CounterChangesOnlyWhereListed :=
  fun _ _ _ h => ⟨(exec_effect h).ta_value_cases.resolve_left, (exec_effect h).tb_value_cases.resolve_left⟩

/-! ### The events -/

/-- An operation but the two that clear them keeps every event. -/
theorem Effect.event_bit_mono (h : Effect i s t) (hIcr : i ≠ .rIcr) (hRst : i ≠ .rst) {n : Nat}
    (hn : s.icr.event.getLsbD n = true) : t.icr.event.getLsbD n = true := by
  by_cases hClk : i = .clk
  · subst hClk
    cases h
    exact (s.advance_irqCheck_event_bit n).2 (.inl hn)
  by_cases hTod : i = .tod
  · subst hTod
    cases h with
    | todMatch => rw [State.irqCheck_icr, Icr.setEvent_event_bit, hn, Bool.true_or]
    | todNoMatch => exact hn
  rcases h.event_eq_or hClk hTod with he | ⟨hClear | hClear, _⟩
  · rwa [he]
  · exact absurd hClear hIcr
  · exact absurd hClear hRst

/-- Settles O42: `R ICR` and `RST` clear all events, and no other operation clears one. -/
theorem eventsStayUntilReadOrReset : Obligations.EventsStayUntilReadOrReset := by
  refine fun i s t h => ⟨fun hIcr hRst n hn => (exec_effect h).event_bit_mono hIcr hRst hn, ?_⟩
  rintro (rfl | rfl) <;> cases h
  · exact s.icr.clearEvents_event
  · rfl

/-! ### The interrupt output -/

/-- Everything an operation can do to the output: leave it and the lines, check it, or release it. -/
theorem Effect.output_cases (h : Effect i s t) :
    OutputKept s t ∨
    ((i = .clk ∨ i = .tod ∨ ∃ v, i = .wIcr v) ∧ ∃ u, OutputKept s u ∧ t = u.irqCheck) ∨
    ((i = .rIcr ∨ i = .rst) ∧ t.intTriggered = false) := by
  cases h with
  | clk => exact .inr (.inl ⟨.inl rfl, s.advance, ⟨rfl, rfl, rfl⟩, rfl⟩)
  | todMatch =>
    exact .inr (.inl ⟨.inr (.inl rfl), { s with clock := s.clock.tick, icr := s.icr.setEvent .alarm },
      ⟨rfl, rfl, rfl⟩, rfl⟩)
  | wIcr v => exact .inr (.inl ⟨.inr (.inr ⟨v, rfl⟩), { s with icr := s.icr.updateMask v }, ⟨rfl, rfl, rfl⟩, rfl⟩)
  | rIcr => exact .inr (.inr ⟨.inl rfl, rfl⟩)
  | rst => exact .inr (.inr ⟨.inr rfl, rfl⟩)
  | _ => exact .inl ⟨rfl, rfl, rfl⟩

/-- While the output is asserted the check of it changes nothing (rule R191). -/
theorem outputKept_irqCheck_of_asserted {u : State} (h : OutputKept s u) (hs : s.intTriggered = true) :
    OutputKept s u.irqCheck := by
  rwa [State.irqCheck_of_asserted (h.output.trans hs)]

/-- Settles O44: an output that is kept neither falls nor rises, a check lowers none, and a release raises none. -/
theorem outputFallsOnlyByReadOrReset : Obligations.OutputFallsOnlyByReadOrReset := by
  intro i s t h
  rcases (exec_effect h).output_cases with hKept | ⟨hWho, u, hu, rfl⟩ | ⟨hWho, ht⟩
  · rw [hKept.output]
    exact ⟨fun h1 h0 => absurd (h1.symm.trans h0) nofun, fun h0 h1 => absurd (h0.symm.trans h1) nofun,
      fun _ _ _ => ⟨hKept.irq, hKept.nmi⟩⟩
  · refine ⟨fun h1 h0 => ?_, fun _ _ => hWho, fun h1 _ _ => ?_⟩
    · rw [(outputKept_irqCheck_of_asserted hu h1).output, h1] at h0
      cases h0
    · have hKept := outputKept_irqCheck_of_asserted hu h1
      exact ⟨hKept.irq, hKept.nmi⟩
  · rw [ht]
    refine ⟨fun _ _ => hWho, nofun, fun _ hIcr hRst => ?_⟩
    rcases hWho with hWho | hWho
    · exact absurd hWho hIcr
    · exact absurd hWho hRst

/-! ### The freeze latch -/

/-- Everything that can happen to the freeze latch (rule R202). -/
theorem Effect.clock_enabled_cases (h : Effect i s t) :
    t.clock.enabled = s.clock.enabled ∨
    (t.clock.enabled = false ∧ (i = .rTod10 ∨ ∃ v, i = .wTodhr v)) ∨
    (t.clock.enabled = true ∧ (∃ v, i = .wTod10 v) ∧ s.todSetAlarm = false) := by
  cases h with
  | rTod10 => exact .inr (.inl ⟨rfl, .inl rfl⟩)
  | wTodhrAlarm v | wTodhrClock v => exact .inr (.inl ⟨rfl, .inr ⟨v, rfl⟩⟩)
  | wTod10Clock v _ _ _ ha => exact .inr (.inr ⟨rfl, ⟨v, rfl⟩, ha⟩)
  | rIcr | wIcr | clk | todMatch | todNoMatch | rst => left; simp
  | _ => exact .inl rfl

/-- Settles O56: the latch is kept, cleared or set, each by the operations that the rule names. -/
theorem freezeLatchIsWrittenInThreePlaces : Obligations.FreezeLatchIsWrittenInThreePlaces := by
  intro i s t h
  rcases (exec_effect h).clock_enabled_cases with hKept | ⟨ht, hWho⟩ | ⟨ht, hWho⟩
  · rw [hKept]
    exact ⟨fun h1 h0 => absurd (h1.symm.trans h0) nofun, fun h0 h1 => absurd (h0.symm.trans h1) nofun⟩
  · rw [ht]
    exact ⟨fun _ _ => hWho, nofun⟩
  · rw [ht]
    exact ⟨nofun, fun _ _ => hWho⟩

end Sys2Proof.Machine
end

section
/-! What takes no part in an operation: the driver's words (rules R20, R34), the timers' output settings outside the control
registers (rules R127, R157), and the chip's identity outside the port reads and the line (rule R250). -/

namespace Sys2Proof.Machine

/-! ### Every form of an effect is an outcome -/

/-- The converse of `exec_effect`. -/
theorem Effect.exec_eq {i : Instr} {s t : State} (h : Effect i s t) : exec i s = .next t := by
  cases h with
  | wTod10Alarm v _ n hv ha =>
    exact (write_of_value (execWTod10_cases v s) hv).trans (by rw [if_pos ha])
  | wTod10Clock v _ n hv ha =>
    exact (write_of_value (execWTod10_cases v s) hv).trans (by rw [if_neg (ne_true_of_eq_false ha)])
  | wTodsecAlarm v _ n hv ha =>
    exact (write_of_value (execWTodsec_cases v s) hv).trans (by rw [if_pos ha])
  | wTodsecClock v _ n hv ha =>
    exact (write_of_value (execWTodsec_cases v s) hv).trans (by rw [if_neg (ne_true_of_eq_false ha)])
  | wTodminAlarm v _ n hv ha =>
    exact (write_of_value (execWTodmin_cases v s) hv).trans (by rw [if_pos ha])
  | wTodminClock v _ n hv ha =>
    exact (write_of_value (execWTodmin_cases v s) hv).trans (by rw [if_neg (ne_true_of_eq_false ha)])
  | wTodhrAlarm v _ n hv ha =>
    exact (write_of_value (execWTodhr_cases v s) hv).trans (by rw [if_pos ha])
  | wTodhrClock v _ n hv ha =>
    exact (write_of_value (execWTodhr_cases v s) hv).trans (by rw [if_neg (ne_true_of_eq_false ha)])
  | wCrb v _ input hd => exact write_of_value (execWCrb_cases v s) hd
  | key l m _ hl => exact dif_pos hl
  | todMatch _ hm => exact congrArg Host.Outcome.next (if_pos ((alarmEqual_iff _ _).2 hm))
  | todNoMatch _ hm => exact congrArg Host.Outcome.next (if_neg (mt (alarmEqual_iff _ _).1 hm))
  | _ => rfl

/-! ### The fields that the interrupt line neither shows nor reads -/

/-- Another pair of timers and other words to issue. -/
def State.mapAside (s : State) (f : Timer TimerAInput → Timer TimerAInput) (g : Timer TimerBInput → Timer TimerBInput)
    (ops : List OpWord → List OpWord) : State :=
  { s with ta := f s.ta, tb := g s.tb, pending := ops s.pending }

section
variable (s : State) (f : Timer TimerAInput → Timer TimerAInput) (g : Timer TimerBInput → Timer TimerBInput)
  (ops : List OpWord → List OpWord)

theorem State.lineAssert_mapAside : (s.mapAside f g ops).lineAssert = s.lineAssert.mapAside f g ops := by
  cases h : s.cfg.chipId <;> simp only [State.lineAssert, State.mapAside, h]

theorem State.lineClear_mapAside : (s.mapAside f g ops).lineClear = s.lineClear.mapAside f g ops := by
  cases h : s.cfg.chipId <;> simp only [State.lineClear, State.mapAside, h]

theorem State.irqCheck_mapAside : (s.mapAside f g ops).irqCheck = s.irqCheck.mapAside f g ops := by
  unfold State.irqCheck
  rw [State.lineAssert_mapAside]
  exact (apply_ite (State.mapAside · f g ops) ((s.icr.ir && !s.intTriggered) = true)
    { s.lineAssert with intTriggered := true } s).symm

theorem State.acknowledge_mapAside : (s.mapAside f g ops).acknowledge = s.acknowledge.mapAside f g ops := by
  unfold State.acknowledge
  rw [State.lineClear_mapAside]
  rfl

end

/-! ### Timers under other output settings -/

/-- A timer is left as it is, or under other output settings. -/
def OutputsOnly {ι : Type} (f : Timer ι → Timer ι) : Prop :=
  f = id ∨ ∃ o e, f = fun t => { t with output := o, outputEnabled := e }

section
variable {ι : Type} {f : Timer ι → Timer ι} (hf : OutputsOnly f) (t : Timer ι)
include hf

theorem OutputsOnly.value : (f t).value = t.value := by
  rcases hf with rfl | ⟨o, e, rfl⟩ <;> rfl

theorem OutputsOnly.input : (f t).input = t.input := by
  rcases hf with rfl | ⟨o, e, rfl⟩ <;> rfl

theorem OutputsOnly.update (pulse : Bool) : (f t).update pulse = (f (t.update pulse).1, (t.update pulse).2) := by
  rcases hf with rfl | ⟨o, e, rfl⟩
  · rfl
  · unfold Timer.update
    split
    · split <;> rfl
    · rfl

theorem OutputsOnly.stopIfOneShot (u : Bool) : (f t).stopIfOneShot u = f (t.stopIfOneShot u) := by
  rcases hf with rfl | ⟨o, e, rfl⟩
  · rfl
  · unfold Timer.stopIfOneShot
    split <;> rfl

theorem OutputsOnly.writeLo (v : Byte) : (f t).writeLo v = f (t.writeLo v) := by
  rcases hf with rfl | ⟨o, e, rfl⟩
  · rfl
  · unfold Timer.writeLo Timer.reloadIfStopped
    split <;> rfl

theorem OutputsOnly.writeHi (v : Byte) : (f t).writeHi v = f (t.writeHi v) := by
  rcases hf with rfl | ⟨o, e, rfl⟩
  · rfl
  · unfold Timer.writeHi Timer.reloadIfStopped
    split <;> rfl

end

section
variable {f : Timer TimerAInput → Timer TimerAInput} {g : Timer TimerBInput → Timer TimerBInput}
  (ops : List OpWord → List OpWord)

/-- Counting looks at no output setting (rule R157). -/
theorem OutputsOnly.advance (hf : OutputsOnly f) (hg : OutputsOnly g) (s : State) :
    (s.mapAside f g ops).advance = s.advance.mapAside f g ops := by
  have hPulseA : pulseA (s.mapAside f g ops) = pulseA s := by
    simp only [pulseA, State.mapAside, hf.input]
  have hA : underflowA (s.mapAside f g ops) = underflowA s := by
    rw [underflowA, hPulseA]
    simp only [State.mapAside, hf.update]
    rfl
  have hPulseB : pulseB (s.mapAside f g ops) (underflowA s) = pulseB s (underflowA s) := by
    simp only [pulseB, State.mapAside, hg.input]
  have hB : underflowB (s.mapAside f g ops) = underflowB s := by
    rw [underflowB, hA, hPulseB]
    simp only [State.mapAside, hg.update]
    rfl
  rw [State.advance, hA, hB, hPulseA, hPulseB]
  simp only [State.mapAside, hf.update, hg.update, hf.stopIfOneShot, hg.stopIfOneShot]
  rfl

/-- The operations that read or write output settings. -/
def TouchesOutputs : Instr → Prop
  | .rCra | .rCrb | .wCra _ | .wCrb _ | .rst => True
  | _ => False

/-- What an operation does, it does under other words to issue, and if it does not touch output settings also under other
ones. -/
theorem Effect.exec_mapAside {i : Instr} {s t : State} (h : Effect i s t) (hf : OutputsOnly f) (hg : OutputsOnly g)
    (hi : TouchesOutputs i → f = id ∧ g = id) :
    exec i (s.mapAside f g ops) = .next (t.mapAside f g ops) := by
  cases h with
  | clk => exact congrArg Host.Outcome.next (by rw [hf.advance ops hg, State.irqCheck_mapAside])
  | wIcr v => exact congrArg Host.Outcome.next (State.irqCheck_mapAside { s with icr := s.icr.updateMask v } f g ops)
  | todMatch _ hm =>
    rw [← State.irqCheck_mapAside]
    exact (Effect.todMatch (s.mapAside f g ops) hm).exec_eq
  | todNoMatch _ hm => exact (Effect.todNoMatch (s.mapAside f g ops) hm).exec_eq
  | rIcr => exact congrArg (fun u : State => Host.Outcome.next (u.returning s.icr.data)) (s.acknowledge_mapAside f g ops)
  | rTalo => exact congrArg (fun x => Host.Outcome.next ((s.mapAside f g ops).returning (loByte x))) (hf.value s.ta)
  | rTahi => exact congrArg (fun x => Host.Outcome.next ((s.mapAside f g ops).returning (hiByte x))) (hf.value s.ta)
  | rTblo => exact congrArg (fun x => Host.Outcome.next ((s.mapAside f g ops).returning (loByte x))) (hg.value s.tb)
  | rTbhi => exact congrArg (fun x => Host.Outcome.next ((s.mapAside f g ops).returning (hiByte x))) (hg.value s.tb)
  | wTalo v => exact congrArg (fun u => Host.Outcome.next { s.mapAside f g ops with ta := u }) (hf.writeLo s.ta v)
  | wTahi v => exact congrArg (fun u => Host.Outcome.next { s.mapAside f g ops with ta := u }) (hf.writeHi s.ta v)
  | wTblo v => exact congrArg (fun u => Host.Outcome.next { s.mapAside f g ops with tb := u }) (hg.writeLo s.tb v)
  | wTbhi v => exact congrArg (fun u => Host.Outcome.next { s.mapAside f g ops with tb := u }) (hg.writeHi s.tb v)
  | wTod10Alarm v _ n hv ha => exact (Effect.wTod10Alarm v (s.mapAside f g ops) n hv ha).exec_eq
  | wTod10Clock v _ n hv ha => exact (Effect.wTod10Clock v (s.mapAside f g ops) n hv ha).exec_eq
  | wTodsecAlarm v _ n hv ha => exact (Effect.wTodsecAlarm v (s.mapAside f g ops) n hv ha).exec_eq
  | wTodsecClock v _ n hv ha => exact (Effect.wTodsecClock v (s.mapAside f g ops) n hv ha).exec_eq
  | wTodminAlarm v _ n hv ha => exact (Effect.wTodminAlarm v (s.mapAside f g ops) n hv ha).exec_eq
  | wTodminClock v _ n hv ha => exact (Effect.wTodminClock v (s.mapAside f g ops) n hv ha).exec_eq
  | wTodhrAlarm v _ n hv ha => exact (Effect.wTodhrAlarm v (s.mapAside f g ops) n hv ha).exec_eq
  | wTodhrClock v _ n hv ha => exact (Effect.wTodhrClock v (s.mapAside f g ops) n hv ha).exec_eq
  | key l m _ hl => exact (Effect.key l m (s.mapAside f g ops) hl).exec_eq
  | rCra | rCrb | wCra =>
    obtain ⟨rfl, rfl⟩ := hi trivial
    rfl
  | wCrb v _ input hd =>
    obtain ⟨rfl, rfl⟩ := hi trivial
    exact (Effect.wCrb v (s.mapAside id id ops) input hd).exec_eq
  | rst =>
    obtain ⟨rfl, rfl⟩ := hi trivial
    rw [exec, execRst, State.resetChip, State.lineClear_mapAside]
    rfl
  | _ => rfl

end

/-! ### The parameters and the driver -/

theorem Effect.cfg_eq {i : Instr} {s t : State} (h : Effect i s t) : t.cfg = s.cfg := by
  cases h with
  | rIcr | wIcr | clk | todMatch | rst => simp
  | _ => rfl

theorem Effect.pending_eq {i : Instr} {s t : State} (h : Effect i s t) : t.pending = s.pending := by
  cases h with
  | rIcr | wIcr | clk | todMatch | rst => simp
  | _ => rfl

/-- Settles O15: no form of `Effect` writes the two fields, and each is had under any words to issue. -/
theorem operationsLeaveParametersAndDriverAlone : Obligations.OperationsLeaveParametersAndDriverAlone :=
  fun _ _ _ h => ⟨(exec_effect h).cfg_eq, (exec_effect h).pending_eq,
    fun ops => (exec_effect h).exec_mapAside (fun _ => ops) (.inl rfl) (.inl rfl) fun _ => ⟨rfl, rfl⟩⟩

/-! ### The output settings -/

/-- Settles O39: outside the operations left out, each form of `Effect` is had under any output settings. -/
theorem outputSettingsAffectNothingElse : Obligations.OutputSettingsAffectNothingElse := by
  intro i s t oa ob ea eb hrCra hrCrb hwCra hwCrb hRst h
  have hi : ¬TouchesOutputs i := by
    intro hi
    cases i with
    | rCra => exact hrCra rfl
    | rCrb => exact hrCrb rfl
    | wCra v => exact hwCra v rfl
    | wCrb v => exact hwCrb v rfl
    | rst => exact hRst rfl
    | _ => exact hi
  exact (exec_effect h).exec_mapAside id (.inr ⟨oa, ea, rfl⟩) (.inr ⟨ob, eb, rfl⟩) fun h => absurd h hi

/-! ### The identity -/

theorem State.lineAssert_withoutIdentity (s : State) : s.lineAssert.withoutIdentity = s.withoutIdentity := by
  unfold State.lineAssert
  split <;> rfl

theorem State.lineClear_withoutIdentity (s : State) : s.lineClear.withoutIdentity = s.withoutIdentity := by
  unfold State.lineClear
  split <;> rfl

theorem State.lineClear_withIdentity (s : State) (id : ChipId) :
    (s.withIdentity id).lineClear.withoutIdentity = s.lineClear.withoutIdentity :=
  (s.withIdentity id).lineClear_withoutIdentity.trans s.lineClear_withoutIdentity.symm

/-- Which chip it is decides only the line that the check drives. -/
theorem State.irqCheck_withIdentity (s : State) (id : ChipId) :
    (s.withIdentity id).irqCheck.withoutIdentity = s.irqCheck.withoutIdentity := by
  have hCheck : ∀ u : State, u.irqCheck.withoutIdentity =
      { u.withoutIdentity with intTriggered := u.intTriggered || u.icr.ir } := by
    intro u
    rcases u.irqCheck_cases with ⟨hr, ho, h⟩ | ⟨hNo, h⟩ <;> rw [h]
    · rw [hr, Bool.or_true]
      exact congrArg (fun v : State => { v with intTriggered := true }) u.lineAssert_withoutIdentity
    · have hKept : (u.intTriggered || u.icr.ir) = u.intTriggered := by
        rcases hNo with hNo | hNo <;> simp [hNo]
      rw [hKept]
      rfl
  rw [hCheck, hCheck]
  rfl

/-- Two outcomes that differ in the identity and the lines only. -/
def SameButIdentity : Out → Out → Prop
  | .next t, .next u => t.withoutIdentity = u.withoutIdentity
  | .fault f, .fault g => f = g
  | .refused q, .refused r => q = r
  | _, _ => False

/-- Two writes with the same value. -/
theorem sameButIdentity_of_write {α : Type} {value : Option α} {o o' refusal : Out} {effect effect' : α → Out}
    (h : (∃ n, value = some n ∧ o = effect n) ∨ (value = none ∧ o = refusal))
    (h' : (∃ n, value = some n ∧ o' = effect' n) ∨ (value = none ∧ o' = refusal))
    (hEffect : ∀ n, SameButIdentity (effect n) (effect' n)) (hRefusal : SameButIdentity refusal refusal) :
    SameButIdentity o o' := by
  cases hv : value with
  | none => rwa [write_of_no_value h hv, write_of_no_value h' hv]
  | some n =>
    rw [write_of_value h hv, write_of_value h' hv]
    exact hEffect n

/-- The target of a time-of-day write is picked by `tod_set_alarm`, on either chip. -/
theorem sameButIdentity_ite {b : Bool} {t t' u u' : State} (ht : t.withoutIdentity = t'.withoutIdentity)
    (hu : u.withoutIdentity = u'.withoutIdentity) :
    SameButIdentity (.next (if b then t else u)) (.next (if b then t' else u')) := by
  cases b
  · exact hu
  · exact ht

/-- An operation but a port read does the same under another identity, or stops alike. -/
theorem exec_withIdentity (i : Instr) (s : State) (id : ChipId) (hPra : i ≠ .rPra) (hPrb : i ≠ .rPrb) :
    SameButIdentity (exec i s) (exec i (s.withIdentity id)) := by
  cases i with
  | rPra => exact absurd rfl hPra
  | rPrb => exact absurd rfl hPrb
  | clk => exact (State.irqCheck_withIdentity s.advance id).symm
  | wIcr v => exact (State.irqCheck_withIdentity { s with icr := s.icr.updateMask v } id).symm
  | tod =>
    by_cases hm : SameReading s.clock.tick s.alarm
    · rw [(Effect.todMatch s hm).exec_eq, (Effect.todMatch (s.withIdentity id) hm).exec_eq]
      exact (State.irqCheck_withIdentity { s with clock := s.clock.tick, icr := s.icr.setEvent .alarm } id).symm
    · rw [(Effect.todNoMatch s hm).exec_eq, (Effect.todNoMatch (s.withIdentity id) hm).exec_eq]
      rfl
  | rIcr =>
    exact congrArg (fun u : State => { u with icr := s.icr.clearEvents, intTriggered := false, result := some s.icr.data })
      (s.lineClear_withIdentity id).symm
  | rst =>
    exact congrArg (fun u : State =>
      { u with cnt := s.resetChip.cnt, flag := s.resetChip.flag, pa := s.resetChip.pa, pb := s.resetChip.pb,
               ta := s.resetChip.ta, tb := s.resetChip.tb, icr := icrAtReset, intTriggered := false,
               todSetAlarm := false }) (s.lineClear_withIdentity id).symm
  | wTod10 v =>
    exact sameButIdentity_of_write (execWTod10_cases v s) (execWTod10_cases v (s.withIdentity id))
      (fun n => sameButIdentity_ite rfl rfl) rfl
  | wTodsec v =>
    exact sameButIdentity_of_write (execWTodsec_cases v s) (execWTodsec_cases v (s.withIdentity id))
      (fun n => sameButIdentity_ite rfl rfl) rfl
  | wTodmin v =>
    exact sameButIdentity_of_write (execWTodmin_cases v s) (execWTodmin_cases v (s.withIdentity id))
      (fun n => sameButIdentity_ite rfl rfl) rfl
  | wTodhr v =>
    exact sameButIdentity_of_write (execWTodhr_cases v s) (execWTodhr_cases v (s.withIdentity id))
      (fun n => sameButIdentity_ite rfl rfl) rfl
  | wCrb v =>
    exact sameButIdentity_of_write (execWCrb_cases v s) (execWCrb_cases v (s.withIdentity id)) (fun n => rfl) rfl
  | key l m =>
    by_cases hl : l.toNat < 8
    · rw [(Effect.key l m s hl).exec_eq, (Effect.key l m (s.withIdentity id) hl).exec_eq]
      rfl
    · simp only [exec, execKey, dif_neg hl]
      rfl
  | pin p l => cases p <;> rfl
  | portin p v => cases p <;> rfl
  | joy p m => cases p <;> rfl
  | _ => rfl

/-- Settles O59: the identity reaches an operation through the port reads and the line only. -/
theorem identityDecidesOnlyLineAndPortReads : Obligations.IdentityDecidesOnlyLineAndPortReads :=
  fun i s id hPra hPrb => exec_withIdentity i s id hPra hPrb

end Sys2Proof.Machine
end

section
/-! Port B, the keyboard and the joysticks (spec/40_pin_port.md rules R114 to R126): the port writes, what port B and the
documented scan show, and the environment's operations. -/

namespace Sys2Proof.Machine

/-- Settles O20: each of the four operations is one field update. -/
theorem portWritesStoreTheByte : Obligations.PortWritesStoreTheByte :=
  fun _ _ => ⟨rfl, rfl, rfl, rfl⟩

/-- On the scanning chip the keyboard scan and the joystick mask are ANDed in, on the other chip nothing is (rule R121). -/
theorem prbByte_getLsbD (s : State) (n : Nat) :
    (prbByte s).getLsbD n =
      ((effective s.pb).getLsbD n && if s.cfg.chipId = s.cfg.kbdChip then
        (kbdScan s.cfg.kbdScan s.pa.value s.keyrow).getLsbD n && s.joyB.getLsbD n else true) := by
  unfold prbByte
  split
  · rw [BitVec.getLsbD_and, BitVec.getLsbD_and, Bool.and_assoc]
  · rw [Bool.and_true]

/-- Settles O22: the read returns `prbByte`, whose bits are those of `effective` under the scan and the mask. -/
theorem portBReadAppliesScanAndMask : Obligations.PortBReadAppliesScanAndMask := fun s =>
  ⟨prbByte s, exec_readInstr .prb s, fun n hn => by rw [prbByte_getLsbD, effective_getLsbD s.pb hn]⟩

/-- A value that selects no line presses no key. -/
theorem pressedMask_of_none_selected (rows : Vector Byte 8) : pressedMask 0xFF rows = 0 := by
  have hSelected : ∀ i : Fin 8, (0xFF : Byte).getLsbD i = true := by decide
  apply BitVec.eq_of_getLsbD_eq
  intro n _
  change (pressedMask 0xFF rows).getLsbD n = (0#8).getLsbD n
  rw [BitVec.getLsbD_zero, ← Bool.not_eq_true, pressedMask_getLsbD]
  rintro ⟨i, hi, _⟩
  rw [hSelected i] at hi
  cases hi

/-- But for the value 0x00 the scan is the complement of the pressed keys: its other shortcut agrees with that. -/
theorem documentedScan_of_ne_zero {c : Byte} (hc : c ≠ 0x00) (rows : Vector Byte 8) :
    documentedScan c rows = ~~~pressedMask c rows := by
  rw [documentedScan, if_neg hc]
  split
  · rename_i hFF
    rw [hFF, pressedMask_of_none_selected]
    rfl
  · rfl

/-- Settles O23: the two shortcuts, and the complement of the pressed keys. -/
theorem keyboardScanShowsPressedKeys : Obligations.KeyboardScanShowsPressedKeys := by
  refine fun c rows => ⟨rfl, rfl, fun hc n hn => ?_⟩
  rw [kbdScan, documentedScan_of_ne_zero hc, BitVec.getLsbD_not, ← pressedMask_getLsbD]
  simp [hn]

/-- Settles O24: the line is replaced in the vector, and a line above 7 has no place in it. -/
theorem keySetsOneMatrixLine : Obligations.KeySetsOneMatrixLine := by
  refine fun s i m => ⟨fun hi => ?_, fun hi => ?_⟩
  · have hLine : i.toNat < 8 := by omega
    refine ⟨_, (Effect.key i m s hLine).exec_eq, fun j => ?_, rfl⟩
    simp only [Fin.getElem_fin, Vector.getElem_set, eq_comm]
  · exact dif_neg (by omega)

/-- The default mask has the five switches in its low bits. -/
theorem joyMask_standard_getLsbD (w : Switches) {n : Nat} (hn : n < 8) :
    (joyMask joyBitsStandard w).getLsbD n =
      !((n == 0 && w.up) || (n == 1 && w.down) || (n == 2 && w.left) || (n == 3 && w.right) || (n == 4 && w.fire)) := by
  simp only [joyMask, joyBitsStandard, BitVec.getLsbD_not, BitVec.getLsbD_or, bitAt_getLsbD]
  interval_cases n <;> simp

/-- Settles O25: the mask is stored, and it is the complement of the closed switches. -/
theorem joySetsTheActiveLowMask : Obligations.JoySetsTheActiveLowMask :=
  ⟨fun _ _ => ⟨rfl, rfl⟩, fun w _ hn => joyMask_standard_getLsbD w hn⟩

end Sys2Proof.Machine
end

section
/-! The low latch bytes and the control registers (spec/41_timer.md rules R143, R145, R151 to R154). -/

namespace Sys2Proof.Machine

/-! ### The low byte of the latch -/

theorem Timer.writeLo_eq {ι : Type} (t : Timer ι) (v : Byte) :
    t.writeLo v = { t with
      latch := ofBytes (hiByte t.latch) v
      value := if t.enabled then t.value else ofBytes (hiByte t.latch) v } :=
  Timer.reloadIfStopped_eq _

/-- The latch that a write of the low byte makes: the high byte stays. -/
theorem ofBytes_hiByte_toNat (x : Word16) (v : Byte) :
    (ofBytes (hiByte x) v).toNat = 256 * (x.toNat / 256) + v.toNat := by
  rw [ofBytes_toNat, hiByte_toNat]

/-- Settles O29: the words are bus words of class 1, and either write replaces its one timer by `Timer.writeLo` of it. -/
theorem lowLatchWriteReloadsStoppedTimer : Obligations.LowLatchWriteReloadsStoppedTimer := fun s v =>
  ⟨⟨decode_append_of_class_write rfl v, _, ofBytes_hiByte_toNat s.ta.latch v,
      congrArg (fun t => (.next { s with ta := t } : Out)) (s.ta.writeLo_eq v)⟩,
    ⟨decode_append_of_class_write rfl v, _, ofBytes_hiByte_toNat s.tb.latch v,
      congrArg (fun t => (.next { s with tb := t } : Out)) (s.tb.writeLo_eq v)⟩⟩

/-! ### The control registers -/

/-- Settles O30: the word is a bus word of class 1, and the write is `Timer.configure` of timer A. -/
theorem craWriteConfiguresTimerA : Obligations.CraWriteConfiguresTimerA :=
  fun _ v => ⟨decode_append_of_class_write rfl v, rfl⟩

/-- The default decode, by the two bits of the selector (rule R91). -/
theorem crbDecode_standard (v : Byte) :
    crbDecode crbDecodeStandard (crbSelector v) =
      some (if v.getLsbD 6 then (if v.getLsbD 5 then .timerAWithCnt else .timerA)
            else (if v.getLsbD 5 then .external else .systemClock)) := by
  revert v
  decide

/-- Settles O31: the word is a bus word of class 1, and the write has the two cases of its selector. -/
theorem crbWriteConfiguresTimerB : Obligations.CrbWriteConfiguresTimerB := fun s v =>
  ⟨decode_append_of_class_write rfl v, fun _ hd => write_of_value (execWCrb_cases v s) hd,
    fun hd => write_of_no_value (execWCrb_cases v s) hd, crbDecode_standard v⟩

/-- The two bits that `R CRB` shows for the input are the bits of its code (rule R154). -/
theorem crbByte_selector (d : CrbDecode) (t : Timer TimerBInput) (a : Bool) :
    (crbByte d t a).extractLsb' 5 2 = crbCode d t.input := by
  apply BitVec.eq_of_getLsbD_eq
  intro n hn
  rw [BitVec.getLsbD_extractLsb']
  interval_cases n <;> simp [crbByte, ctlStatus]

theorem craByte_bits (t : Timer TimerAInput) :
    (craByte t).getLsbD 0 = t.enabled ∧ (craByte t).getLsbD 1 = t.outputEnabled ∧
      ((craByte t).getLsbD 2 = true ↔ t.output = .toggle) ∧ ((craByte t).getLsbD 3 = true ↔ t.mode = .oneShot) ∧
      (craByte t).getLsbD 4 = false ∧ ((craByte t).getLsbD 5 = true ↔ t.input = .external) ∧
      (craByte t).getLsbD 6 = false ∧ (craByte t).getLsbD 7 = false := by
  simp [craByte, ctlStatus]

theorem crbByte_bits (d : CrbDecode) (t : Timer TimerBInput) (a : Bool) :
    (crbByte d t a).getLsbD 0 = t.enabled ∧ (crbByte d t a).getLsbD 1 = t.outputEnabled ∧
      ((crbByte d t a).getLsbD 2 = true ↔ t.output = .toggle) ∧
      ((crbByte d t a).getLsbD 3 = true ↔ t.mode = .oneShot) ∧
      (crbByte d t a).getLsbD 4 = false ∧ (crbByte d t a).getLsbD 7 = a := by
  simp [crbByte, ctlStatus]

/-- Settles O32: the reads, which have no side effect, return `craByte` and `crbByte`, and a code that is the only one is
the one found. -/
theorem controlReadsReturnTheStatus : Obligations.ControlReadsReturnTheStatus := by
  refine fun s => ⟨⟨_, exec_readInstr .cra s, craByte_bits s.ta⟩, ⟨_, exec_readInstr .crb s, ?_⟩⟩
  obtain ⟨h0, h1, h2, h3, h4, h7⟩ := crbByte_bits s.cfg.crbInputDecode s.tb s.todSetAlarm
  exact ⟨h0, h1, h2, h3, h4, h7, fun _ h => (crbByte_selector _ _ _).trans (crbCode_of_unique h)⟩

end Sys2Proof.Machine
end

section
/-! The read of the ICR (spec/42_icr.md rules R183 to R185): the byte bit by bit, and the acknowledgement. -/

namespace Sys2Proof.Machine

/-- Bits 0 to 4 of the data byte are the events, bits 5 and 6 read 0, bit 7 is the request (rule R183). -/
theorem Icr.data_getLsbD (r : Icr) {n : Nat} (hn : n < 7) :
    r.data.getLsbD n = (r.event.getLsbD n && decide (n < 5)) := by
  unfold Icr.data
  interval_cases n <;> cases r.ir <;> simp

theorem Icr.data_getLsbD_seven (r : Icr) : r.data.getLsbD 7 = r.ir := by
  unfold Icr.data
  cases r.ir <;> simp

/-- The read changes the byte returned, the events, the output and the lines only. -/
theorem State.acknowledge_returning_frame (s : State) (b : Byte) :
    { s.acknowledge.returning b with
      result := s.result, icr := s.icr, intTriggered := s.intTriggered, irq := s.irq, nmi := s.nmi } = s :=
  congrArg (fun u : State => { u with result := s.result, icr := s.icr, intTriggered := s.intTriggered })
    s.lineClear_frame

/-- Settles O40: the word is a bus word of class 0, the byte is `Icr.data`, and the state is that of the acknowledgement. -/
theorem icrReadReturnsAndClears : Obligations.IcrReadReturnsAndClears := by
  refine fun s d => ⟨decode_append_of_class_read rfl d, _, s.icr.data, exec_readInstr .icr s, rfl, fun n hn => ?_,
    ?_, ?_, ?_, rfl, rfl, s.acknowledge_returning_outputReleased _, s.acknowledge_returning_frame _⟩
  · rw [Icr.data_getLsbD _ (by omega), decide_eq_true hn, Bool.and_true]
  · rw [Icr.data_getLsbD _ (by decide)]
    simp
  · rw [Icr.data_getLsbD _ (by decide)]
    simp
  · rw [Icr.data_getLsbD_seven, Icr.ir_iff]

end Sys2Proof.Machine
end

section
/-! The time of day over many ticks (spec/43_tod.md rule R216, spec/44_chip.md rule R242), the effect of one `TOD`, and the
accesses that stop the clock or store a coerced value (rules R203, R210, spec/93_implementation_defined.md U7). -/

namespace Sys2Proof.Machine

/-! ### Repetition -/

/-- An operation that completes from every state may be repeated any number of times. -/
theorem execTimes_of_total {i : Instr} {f : State → State} (h : ∀ s, exec i s = .next (f s)) (n : Nat) (s : State) :
    execTimes i n s = .next (f^[n] s) := by
  induction n with
  | zero => rfl
  | succ n ih => rw [execTimes_succ i n ih, h, Function.iterate_succ_apply']

/-! ### One tick -/

/-- A clock that gives the reading of an alarm. -/
def Alarm.asClock (a : Alarm) (enabled : Bool) : Clock :=
  { tenths := a.tenths, seconds := a.seconds, minutes := a.minutes, hours := a.hours, pm := a.pm, enabled := enabled }

theorem Alarm.asClock_inRange {a : Alarm} (h : a.InRange) (b : Bool) : (a.asClock b).InRange := { h with }

theorem sameReading_iff (c : Clock) (a : Alarm) : SameReading c a ↔ c = a.asClock c.enabled := by
  constructor
  · rintro ⟨h1, h2, h3, h4, h5⟩
    rw [Alarm.asClock, ← h1, ← h2, ← h3, ← h4, ← h5]
  · intro h
    rw [h]
    exact ⟨rfl, rfl, rfl, rfl, rfl⟩

theorem State.todTick_clock (s : State) : s.todTick.clock = s.clock.tick := by
  rcases s.todTick_cases with ⟨_, h⟩ | ⟨_, h⟩ <;> rw [h]
  exact State.irqCheck_clock _

/-- A tick of the time of day changes the clock, the events, the output and the lines only. -/
theorem State.todTick_frame (s : State) :
    { s.todTick with clock := s.clock, icr := s.icr, intTriggered := s.intTriggered, irq := s.irq, nmi := s.nmi } = s := by
  rcases s.todTick_cases with ⟨_, h⟩ | ⟨_, h⟩ <;> rw [h]
  exact congrArg (fun u : State => { u with clock := s.clock, icr := s.icr })
    (State.irqCheck_frame { s with clock := s.clock.tick, icr := s.icr.setEvent .alarm })

/-- The tick, the comparison on the new time, the event and the check: the whole of rule R242. -/
theorem State.todTick_todEffect (s : State) : TodEffect s s.todTick where
  clock := s.todTick_clock
  event2 := by
    rw [s.todTick_event_bit, s.todTick_clock, s.todTick_alarm]
    simp
  events n hn := by
    rw [Bool.eq_iff_iff, s.todTick_event_bit]
    simp [hn]
  mask := by
    rcases s.todTick_cases with ⟨_, h⟩ | ⟨_, h⟩ <;> rw [h]
    rw [State.irqCheck_icr, Icr.setEvent_mask]
  checked hm := by
    rcases s.todTick_cases with ⟨_, h⟩ | ⟨hNo, _⟩
    · rw [h]
      exact State.irqCheck_checked rfl rfl rfl rfl
    · exact absurd hm hNo
  kept hNo := by
    rcases s.todTick_cases with ⟨hm, _⟩ | ⟨_, h⟩
    · exact absurd hm hNo
    · rw [h]
      exact ⟨rfl, rfl, rfl⟩
  frame := s.todTick_frame

/-- Settles O48: the word is read off the table of rule R81, and `TOD` is `State.todTick`. -/
theorem todTicksAndComparesTheAlarm : Obligations.TodTicksAndComparesTheAlarm :=
  ⟨by decide, fun s => ⟨s.todTick, rfl, s.todTick_todEffect⟩⟩

/-! ### Many ticks -/

theorem Clock.ordinal_lt {c : Clock} (h : c.InRange) : c.ordinal < 864000 := by
  obtain ⟨hTenths, hSeconds, hMinutes, hLo, hHi⟩ := h
  unfold Clock.ordinal
  cases c.pm
  · rw [if_neg (by decide)]; omega
  · rw [if_pos rfl]; omega

/-- The fields of a clock in its ranges are the digits of its ordinal. -/
theorem Clock.digits_of_ordinal {c : Clock} (h : c.InRange) :
    c.tenths = c.ordinal % 10 ∧ c.seconds = c.ordinal / 10 % 60 ∧ c.minutes = c.ordinal / 600 % 60 ∧
      c.hours = c.ordinal / 36000 % 12 + 1 ∧ c.pm = decide (432000 ≤ c.ordinal) := by
  obtain ⟨hTenths, hSeconds, hMinutes, hLo, hHi⟩ := h
  unfold Clock.ordinal
  cases c.pm
  · rw [if_neg (by decide), eq_comm (a := false), decide_eq_false_iff_not]
    omega
  · rw [if_pos rfl, eq_comm (a := true), decide_eq_true_iff]
    omega

/-- In its ranges a clock is given by its ordinal and its freeze latch. -/
theorem Clock.eq_of_ordinal_eq {c d : Clock} (hc : c.InRange) (hd : d.InRange) (he : c.enabled = d.enabled)
    (h : c.ordinal = d.ordinal) : c = d := by
  obtain ⟨c1, c2, c3, c4, c5⟩ := Clock.digits_of_ordinal hc
  obtain ⟨d1, d2, d3, d4, d5⟩ := Clock.digits_of_ordinal hd
  rw [h] at c1 c2 c3 c4 c5
  rcases c with ⟨_, _, _, _, _, _⟩
  rw [Clock.mk.injEq]
  exact ⟨c1.trans d1.symm, c2.trans d2.symm, c3.trans d3.symm, c4.trans d4.symm, c5.trans d5.symm, he⟩

/-- A running clock after `n` ticks runs, is in its ranges, and is `n` places further on in the day. -/
theorem Clock.iterate_tick {c : Clock} (hc : c.InRange) (he : c.enabled = true) (n : Nat) :
    (Clock.tick^[n] c).InRange ∧ (Clock.tick^[n] c).enabled = true ∧
      (Clock.tick^[n] c).ordinal = (c.ordinal + n) % 864000 := by
  induction n with
  | zero => exact ⟨hc, he, (Nat.mod_eq_of_lt (Clock.ordinal_lt hc)).symm⟩
  | succ n ih =>
    obtain ⟨hRange, hRuns, hOrdinal⟩ := ih
    rw [Function.iterate_succ_apply']
    refine ⟨Clock.tick_inRange hRange, (Clock.tick_enabled _).trans hRuns, ?_⟩
    rw [Clock.tick_ordinal hRange hRuns, hOrdinal]
    omega

/-- The other half of the day is half a day away. -/
theorem Clock.ordinal_not_pm {c : Clock} (hc : c.InRange) :
    ({ c with pm := !c.pm } : Clock).ordinal = (c.ordinal + 432000) % 864000 := by
  obtain ⟨hTenths, hSeconds, hMinutes, hLo, hHi⟩ := hc
  simp only [Clock.ordinal]
  cases c.pm
  · rw [Bool.not_false, if_pos rfl, if_neg (by decide)]; omega
  · rw [Bool.not_true, if_neg (by decide), if_pos rfl]; omega

theorem State.iterate_todTick_clock (s : State) (n : Nat) : (State.todTick^[n] s).clock = Clock.tick^[n] s.clock := by
  induction n with
  | zero => rfl
  | succ n ih => rw [Function.iterate_succ_apply', State.todTick_clock, ih, Function.iterate_succ_apply']

/-- Settles O47: the clock after `n` ticks is found by its ordinal. -/
theorem runningClockRepeatsEveryDay : Obligations.RunningClockRepeatsEveryDay := by
  intro s n hc he
  obtain ⟨hRange, hRuns, hOrdinal⟩ := Clock.iterate_tick hc he n
  refine ⟨_, execTimes_of_total (fun _ => rfl) n s, ?_⟩
  rw [s.iterate_todTick_clock]
  refine ⟨hRange, hRuns, hOrdinal, fun hDay => ?_, fun hHalf => ?_⟩
  · refine Clock.eq_of_ordinal_eq hRange hc (hRuns.trans he.symm) ?_
    have := Clock.ordinal_lt hc
    omega
  · refine Clock.eq_of_ordinal_eq hRange { hc with } (hRuns.trans he.symm) ?_
    rw [hOrdinal, Clock.ordinal_not_pm hc]
    omega

/-- A running clock meets an alarm when the ordinals agree. -/
theorem Clock.iterate_tick_sameReading_iff {c : Clock} {a : Alarm} (hc : c.InRange) (he : c.enabled = true)
    (ha : a.InRange) (k : Nat) : SameReading (Clock.tick^[k] c) a ↔ (c.ordinal + k) % 864000 = (a.asClock true).ordinal := by
  obtain ⟨hRange, hRuns, hOrdinal⟩ := Clock.iterate_tick hc he k
  rw [sameReading_iff, hRuns, ← hOrdinal]
  exact ⟨fun h => congrArg Clock.ordinal h, Clock.eq_of_ordinal_eq hRange (Alarm.asClock_inRange ha true) hRuns⟩

/-- Settles O49: of the ordinals on the way each occurs once in a day. -/
theorem alarmMatchesOncePerDay : Obligations.AlarmMatchesOncePerDay := by
  intro c a hc he ha
  have hClock := Clock.ordinal_lt hc
  have hAlarm := Clock.ordinal_lt (Alarm.asClock_inRange ha true)
  simp only [Clock.iterate_tick_sameReading_iff hc he ha]
  -- The number of ticks from the clock's place in the day to the alarm's, a whole day if they are the same.
  refine ⟨((a.asClock true).ordinal + 863999 - c.ordinal) % 864000 + 1, ⟨?_, ?_, ?_⟩, fun k hk => ?_⟩ <;> omega

/-! ### Register accesses -/

/-- Settles O51: the word is a bus word of class 0, and the digit of a clock in its ranges is its own BCD. -/
theorem tenthsReadFreezesTheClock : Obligations.TenthsReadFreezesTheClock := by
  refine fun s d hc => ⟨decode_append_of_class_read rfl d, _, ?_, exec_readInstr .tod10 s⟩
  have hTenths := hc.tenths
  change (toBcd s.clock.tenths).toNat = _
  rw [toBcd_toNat (by omega)]
  omega

theorem hoursValue_of_legal {v : Byte} (h : hoursLegal v = true) (k : TodIllegal) :
    hoursValue k v = some (10 * (v.toNat % 128 / 16) + v.toNat % 128 % 16) := by
  rw [hoursValue, todValue_of_legal h, fromBcd, hourBits_toNat]

/-- Settles O54: the word is a bus word of class 1, and the byte has the value of its two digits below the PM flag,
or none. -/
theorem hoursWriteStopsTheClock : Obligations.HoursWriteStopsTheClock := by
  refine fun s v => ⟨decode_append_of_class_write rfl v, fun hLegal => ?_, fun hIllegal hk => ?_⟩
  · exact write_of_value (execWTodhr_cases v s) (hoursValue_of_legal ((hoursLegal_iff v).2 hLegal) _)
  · exact write_of_no_value (execWTodhr_cases v s) (todValue_of_illegal hk (mt (hoursLegal_iff v).1 hIllegal) _ _ v _ _)

/-- Under a `TOD_COERCE` every byte has a value. -/
theorem todValue_of_coerced {k : TodIllegal} {n : Nat} (hk : k = .coerced n) {legal : Bool} {bcd : Byte} {a : RegAddr}
    {v : Byte} {l p : Nat} : ∃ m, todValue k legal bcd a v l p = some m := by
  rw [← Option.isSome_iff_exists, Option.isSome_iff_ne_none]
  intro hNone
  cases hk.symm.trans (todValue_none hNone).2

/-- Settles O55: every byte has a value, and each register's values are in its field's range. -/
theorem coercedWritesStoreALegalValue : Obligations.CoercedWritesStoreALegalValue := by
  intro s k v hk
  obtain ⟨tenths, hTenths⟩ : ∃ n, tenthsValue s.cfg.todIllegal v = some n := todValue_of_coerced hk
  obtain ⟨seconds, hSeconds⟩ : ∃ n, secondsValue s.cfg.todIllegal v = some n := todValue_of_coerced hk
  obtain ⟨minutes, hMinutes⟩ : ∃ n, minutesValue s.cfg.todIllegal v = some n := todValue_of_coerced hk
  obtain ⟨hours, hHours⟩ : ∃ n, hoursValue s.cfg.todIllegal v = some n := todValue_of_coerced hk
  obtain ⟨hLo, hHi⟩ := hoursValue_range hHours
  exact ⟨⟨tenths, tenthsValue_range hTenths, write_of_value (execWTod10_cases v s) hTenths⟩,
    ⟨seconds, secondsValue_range hSeconds, write_of_value (execWTodsec_cases v s) hSeconds⟩,
    ⟨minutes, minutesValue_range hMinutes, write_of_value (execWTodmin_cases v s) hMinutes⟩,
    ⟨hours, hLo, hHi, write_of_value (execWTodhr_cases v s) hHours⟩⟩

end Sys2Proof.Machine
end

section
/-! The timers over many clocks (spec/41_timer.md rules R142, R158 to R161, spec/40_pin_port.md rule R112): a stopped timer,
a countdown, the period of a continuous timer A, and timer B chained to it. -/

namespace Sys2Proof.Machine

/-! ### One clock -/

/-- The state after a `CLK` (rule R241). -/
def State.clocked (s : State) : State := s.advance.irqCheck

theorem State.clocked_effect (s : State) : ClkEffect s s.clocked := s.advance_irqCheck_clkEffect

theorem execTimes_clk (m : Nat) (s : State) : execTimes .clk m s = .next (State.clocked^[m] s) :=
  execTimes_of_total (fun _ => rfl) m s

/-- A timer that does not count stays as it is. -/
theorem TimerStep.eq_of_idle {ι : Type} {counts : Prop} {t u : Timer ι} (h : TimerStep counts t u) (hc : ¬counts) :
    u = t := by
  obtain ⟨hValue, hEnabled⟩ := h.idle hc
  calc u = { u with value := t.value, enabled := t.enabled } := by rw [← hValue, ← hEnabled]
    _ = t := h.rest

section
variable {s t : State} (h : ClkEffect s t)
include h

theorem ClkEffect.cnt_eq : t.cnt = s.cnt := (congrArg State.cnt h.frame :)

theorem ClkEffect.event0_of_not_expires (hNo : ¬TimerAExpires s) :
    t.icr.event.getLsbD 0 = s.icr.event.getLsbD 0 := by
  rw [Bool.eq_iff_iff, h.event0, or_iff_left hNo]

theorem ClkEffect.event1_of_not_expires (hNo : ¬TimerBExpires s) :
    t.icr.event.getLsbD 1 = s.icr.event.getLsbD 1 := by
  rw [Bool.eq_iff_iff, h.event1, or_iff_left hNo]

theorem ClkEffect.ta_of_stopped (he : s.ta.enabled = false) :
    t.ta = s.ta ∧ t.icr.event.getLsbD 0 = s.icr.event.getLsbD 0 := by
  have hNo : ¬TimerACounts s := fun hc => absurd (he.symm.trans hc.1) nofun
  exact ⟨h.timerA.eq_of_idle hNo, h.event0_of_not_expires fun hx => hNo hx.1⟩

theorem ClkEffect.tb_of_stopped (he : s.tb.enabled = false) :
    t.tb = s.tb ∧ t.icr.event.getLsbD 1 = s.icr.event.getLsbD 1 := by
  have hNo : ¬TimerBCounts s := fun hc => absurd (he.symm.trans hc.1) nofun
  exact ⟨h.timerB.eq_of_idle hNo, h.event1_of_not_expires fun hx => hNo hx.1⟩

end

/-! ### What any number of clocks keeps -/

/-- A stopped timer A consumes nothing (rule R161). -/
theorem State.iterate_clocked_ta_of_stopped {s : State} (he : s.ta.enabled = false) (m : Nat) :
    (State.clocked^[m] s).ta = s.ta ∧ (State.clocked^[m] s).icr.event.getLsbD 0 = s.icr.event.getLsbD 0 := by
  induction m with
  | zero => exact ⟨rfl, rfl⟩
  | succ m ih =>
    obtain ⟨hTimer, hEvent⟩ := ih
    rw [Function.iterate_succ_apply']
    obtain ⟨hTimer', hEvent'⟩ := (State.clocked_effect _).ta_of_stopped ((congrArg Timer.enabled hTimer).trans he)
    exact ⟨hTimer'.trans hTimer, hEvent'.trans hEvent⟩

/-- A stopped timer B consumes nothing. -/
theorem State.iterate_clocked_tb_of_stopped {s : State} (he : s.tb.enabled = false) (m : Nat) :
    (State.clocked^[m] s).tb = s.tb ∧ (State.clocked^[m] s).icr.event.getLsbD 1 = s.icr.event.getLsbD 1 := by
  induction m with
  | zero => exact ⟨rfl, rfl⟩
  | succ m ih =>
    obtain ⟨hTimer, hEvent⟩ := ih
    rw [Function.iterate_succ_apply']
    obtain ⟨hTimer', hEvent'⟩ := (State.clocked_effect _).tb_of_stopped ((congrArg Timer.enabled hTimer).trans he)
    exact ⟨hTimer'.trans hTimer, hEvent'.trans hEvent⟩

/-- Settles O38: by induction on the clocks, a stopped timer never counts. -/
theorem stoppedTimersConsumeNothing : Obligations.StoppedTimersConsumeNothing := fun s m =>
  ⟨_, execTimes_clk m s, fun he => State.iterate_clocked_ta_of_stopped he m,
    fun he => State.iterate_clocked_tb_of_stopped he m⟩

theorem State.iterate_clocked_cnt (s : State) (m : Nat) : (State.clocked^[m] s).cnt = s.cnt := by
  induction m with
  | zero => rfl
  | succ m ih =>
    rw [Function.iterate_succ_apply']
    exact (State.clocked_effect _).cnt_eq.trans ih

/-- Timer A keeps its latch and its configuration. -/
theorem State.iterate_clocked_ta_rest (s : State) (m : Nat) :
    ({ (State.clocked^[m] s).ta with value := s.ta.value, enabled := s.ta.enabled } : Timer TimerAInput) = s.ta := by
  induction m with
  | zero => rfl
  | succ m ih =>
    rw [Function.iterate_succ_apply']
    have hRest := (State.clocked_effect (State.clocked^[m] s)).timerA.rest
    exact (congrArg (fun u : Timer TimerAInput => { u with value := s.ta.value, enabled := s.ta.enabled }) hRest).trans ih

/-- Timer B keeps its latch and its configuration. -/
theorem State.iterate_clocked_tb_rest (s : State) (m : Nat) :
    ({ (State.clocked^[m] s).tb with value := s.tb.value, enabled := s.tb.enabled } : Timer TimerBInput) = s.tb := by
  induction m with
  | zero => rfl
  | succ m ih =>
    rw [Function.iterate_succ_apply']
    have hRest := (State.clocked_effect (State.clocked^[m] s)).timerB.rest
    exact (congrArg (fun u : Timer TimerBInput => { u with value := s.tb.value, enabled := s.tb.enabled }) hRest).trans ih

section
variable (s : State) (m : Nat)

theorem State.iterate_clocked_ta_latch : (State.clocked^[m] s).ta.latch = s.ta.latch :=
  (congrArg Timer.latch (s.iterate_clocked_ta_rest m) :)

theorem State.iterate_clocked_ta_mode : (State.clocked^[m] s).ta.mode = s.ta.mode :=
  (congrArg Timer.mode (s.iterate_clocked_ta_rest m) :)

theorem State.iterate_clocked_ta_input : (State.clocked^[m] s).ta.input = s.ta.input :=
  (congrArg Timer.input (s.iterate_clocked_ta_rest m) :)

theorem State.iterate_clocked_tb_input : (State.clocked^[m] s).tb.input = s.tb.input :=
  (congrArg Timer.input (s.iterate_clocked_tb_rest m) :)

end

/-- Timer A's pulse does not depend on the clocks that have passed: its source and the edge on CNT stay (rule R112). -/
theorem State.iterate_clocked_counts {s : State} (hs : TimerACounts s) {m : Nat}
    (he : (State.clocked^[m] s).ta.enabled = true) : TimerACounts (State.clocked^[m] s) := by
  refine ⟨he, fun hi => ?_⟩
  rw [CntRises, s.iterate_clocked_cnt]
  exact hs.2 ((s.iterate_clocked_ta_input m).symm.trans hi)

theorem timerACounts_of_systemClock {s : State} (he : s.ta.enabled = true) (hi : s.ta.input = .systemClock) :
    TimerACounts s :=
  ⟨he, fun hx => absurd (hi.symm.trans hx) nofun⟩

/-! ### The countdown -/

/-- Down to 0 a counting timer A takes one per clock, runs on and records nothing. -/
theorem State.iterate_clocked_countdown {s : State} (hs : TimerACounts s) {m : Nat} (hm : m ≤ s.ta.value.toNat) :
    (State.clocked^[m] s).ta.enabled = true ∧ (State.clocked^[m] s).ta.value.toNat = s.ta.value.toNat - m ∧
      (State.clocked^[m] s).icr.event.getLsbD 0 = s.icr.event.getLsbD 0 := by
  induction m with
  | zero => exact ⟨hs.1, rfl, rfl⟩
  | succ m ih =>
    obtain ⟨hEnabled, hValue, hEvent⟩ := ih (by omega)
    have hNonzero : (State.clocked^[m] s).ta.value ≠ 0 := by
      intro hz
      rw [hz] at hValue
      change 0 = _ at hValue
      omega
    rw [Function.iterate_succ_apply']
    have hEffect := State.clocked_effect (State.clocked^[m] s)
    obtain ⟨hValue', hEnabled'⟩ := hEffect.timerA.counted (State.iterate_clocked_counts hs hEnabled) hNonzero
    exact ⟨hEnabled'.trans hEnabled, by omega,
      (hEffect.event0_of_not_expires fun hx => hNonzero hx.2).trans hEvent⟩

/-- Settles O18: the edge stays, so timer A counts down in every clock. -/
theorem edgeIsCountedInEveryClock : Obligations.EdgeIsCountedInEveryClock := by
  intro s n he _ hRises hn
  obtain ⟨_, hValue, _⟩ := State.iterate_clocked_countdown ⟨he, fun _ => hRises⟩ hn
  refine ⟨_, execTimes_clk n s, ?_, hValue⟩
  rwa [CntRises, s.iterate_clocked_cnt]

/-- The clock after the countdown: a one-shot timer A stops at its latch, with its event recorded (rule R142). -/
theorem State.iterate_clocked_oneShot_expires {s : State} (hs : TimerACounts s) (hMode : s.ta.mode = .oneShot) :
    (State.clocked^[s.ta.value.toNat + 1] s).ta.enabled = false ∧
      (State.clocked^[s.ta.value.toNat + 1] s).ta.value = s.ta.latch ∧
      (State.clocked^[s.ta.value.toNat + 1] s).icr.event.getLsbD 0 = true := by
  obtain ⟨hEnabled, hValue, _⟩ := State.iterate_clocked_countdown hs le_rfl
  have hCounts := State.iterate_clocked_counts hs hEnabled
  have hZero : (State.clocked^[s.ta.value.toNat] s).ta.value = 0 :=
    BitVec.eq_of_toNat_eq (hValue.trans (Nat.sub_self _))
  have hEffect := State.clocked_effect (State.clocked^[s.ta.value.toNat] s)
  obtain ⟨hValue', hEnabled'⟩ := hEffect.timerA.expires hCounts hZero
  rw [Function.iterate_succ_apply']
  refine ⟨?_, hValue'.trans (s.iterate_clocked_ta_latch _), hEffect.event0.2 (.inr ⟨hCounts, hZero⟩)⟩
  rw [← Bool.not_eq_true, hEnabled', s.iterate_clocked_ta_mode, hMode]
  exact nofun

/-- Settles O36: the countdown, the clock that expires, and from then on a stopped timer. -/
theorem oneShotTimerStopsAtItsLatch : Obligations.OneShotTimerStopsAtItsLatch := by
  intro s m he hMode hi
  have hs := timerACounts_of_systemClock he hi
  refine ⟨_, execTimes_clk m s, fun hm => State.iterate_clocked_countdown hs hm, fun hm => ?_⟩
  obtain ⟨hEnabled, hValue, hEvent⟩ := State.iterate_clocked_oneShot_expires hs hMode
  obtain ⟨k, rfl⟩ := Nat.exists_eq_add_of_le' (Nat.succ_le_of_lt hm)
  obtain ⟨hTimer, hEvent'⟩ := State.iterate_clocked_ta_of_stopped hEnabled k
  rw [Nat.succ_eq_add_one, Function.iterate_add_apply, hTimer, hEvent']
  exact ⟨hEnabled, hValue, hEvent⟩

/-! ### The period of a continuous timer -/

/-- Counting modulo `N + 1`. -/
theorem succ_mod_eq (m N : Nat) : (m + 1) % (N + 1) = if m % (N + 1) = N then 0 else m % (N + 1) + 1 := by
  have hLt := Nat.mod_lt m (Nat.add_one_pos N)
  split_ifs with h
  · exact Nat.succ_mod_succ_eq_zero_iff.2 h
  · rw [← Nat.mod_add_mod, Nat.mod_eq_of_lt (by omega)]

section
variable {s : State} (hs : TimerACounts s) (hMode : s.ta.mode = .continuous) (hLatch : s.ta.value = s.ta.latch) (m : Nat)
include hs hMode hLatch

/-- A continuous timer A, started at its latch, counts down modulo its period for ever (rule R158). -/
theorem State.iterate_clocked_period :
    (State.clocked^[m] s).ta.enabled = true ∧
      (State.clocked^[m] s).ta.value.toNat = s.ta.latch.toNat - m % (s.ta.latch.toNat + 1) := by
  induction m with
  | zero => exact ⟨hs.1, by rw [Nat.zero_mod, Nat.sub_zero, ← hLatch]; rfl⟩
  | succ m ih =>
    obtain ⟨hEnabled, hValue⟩ := ih
    have hLt := Nat.mod_lt m (Nat.add_one_pos s.ta.latch.toNat)
    have hCounts := State.iterate_clocked_counts hs hEnabled
    have hStep := (State.clocked_effect (State.clocked^[m] s)).timerA
    rw [Function.iterate_succ_apply', succ_mod_eq]
    by_cases hz : (State.clocked^[m] s).ta.value = 0
    · obtain ⟨hValue', hEnabled'⟩ := hStep.expires hCounts hz
      rw [hz] at hValue
      change 0 = _ at hValue
      refine ⟨hEnabled'.2 ((s.iterate_clocked_ta_mode m).trans hMode), ?_⟩
      rw [hValue', s.iterate_clocked_ta_latch, if_pos (by omega), Nat.sub_zero]
    · obtain ⟨hValue', hEnabled'⟩ := hStep.counted hCounts hz
      refine ⟨hEnabled'.trans hEnabled, ?_⟩
      rw [if_neg (by omega)]
      omega

/-- It expires in the clocks numbered by the multiples of its period. -/
theorem State.iterate_clocked_expires_iff :
    TimerAExpires (State.clocked^[m] s) ↔ s.ta.latch.toNat + 1 ∣ m + 1 := by
  obtain ⟨hEnabled, hValue⟩ := State.iterate_clocked_period hs hMode hLatch m
  have hLt := Nat.mod_lt m (Nat.add_one_pos s.ta.latch.toNat)
  rw [TimerAExpires, and_iff_right (State.iterate_clocked_counts hs hEnabled), ← BitVec.toNat_inj, hValue,
    Nat.dvd_iff_mod_eq_zero, Nat.succ_mod_succ_eq_zero_iff]
  change _ = 0 ↔ _
  omega

/-- Its event is recorded from the end of the first period on. -/
theorem State.iterate_clocked_event0_iff :
    (State.clocked^[m] s).icr.event.getLsbD 0 = true ↔
      s.icr.event.getLsbD 0 = true ∨ s.ta.latch.toNat + 1 ≤ m := by
  induction m with
  | zero => simp
  | succ m ih =>
    rw [Function.iterate_succ_apply', (State.clocked_effect _).event0, ih,
      State.iterate_clocked_expires_iff hs hMode hLatch m, or_assoc]
    refine or_congr_right ⟨?_, fun hm => ?_⟩
    · rintro (hm | hDvd)
      · omega
      · exact Nat.le_of_dvd (Nat.succ_pos m) hDvd
    · rcases Nat.lt_or_ge s.ta.latch.toNat m with hLt | hGe
      · exact .inl hLt
      · exact .inr (by rw [Nat.le_antisymm hGe (Nat.le_of_succ_le_succ hm)])

end

/-- Settles O35: the period, its last clock and the event, each by induction on the clocks. -/
theorem continuousTimerHasPeriodLatchPlusOne : Obligations.ContinuousTimerHasPeriodLatchPlusOne := by
  intro s m he hMode hi hLatch
  have hs := timerACounts_of_systemClock he hi
  obtain ⟨hEnabled, hValue⟩ := State.iterate_clocked_period hs hMode hLatch m
  refine ⟨_, execTimes_clk m s, hValue, State.iterate_clocked_expires_iff hs hMode hLatch m,
    State.iterate_clocked_event0_iff hs hMode hLatch m, ?_⟩
  have hRest := s.iterate_clocked_ta_rest m
  rwa [he, ← hEnabled] at hRest

/-! ### Timer B chained to timer A -/

/-- Chained to timer A's underflows, a running timer B counts those (rule R156). -/
theorem timerBCounts_iff_of_chained {s : State} (he : s.tb.enabled = true) (hi : s.tb.input = .timerA) :
    TimerBCounts s ↔ TimerAExpires s := by
  unfold TimerBCounts
  simp [he, hi]

section
variable {s : State} (hs : TimerACounts s) (hMode : s.ta.mode = .continuous) (hLatch : s.ta.value = s.ta.latch)
  (he : s.tb.enabled = true) (hi : s.tb.input = .timerA) (hLatchB : s.tb.value = s.tb.latch)
include hs hMode hLatch he hi hLatchB

/-- Up to its own underflow, timer B takes one per period of timer A and records nothing (rule R160). -/
theorem State.iterate_clocked_chained {m : Nat} (hm : m < (s.tb.latch.toNat + 1) * (s.ta.latch.toNat + 1)) :
    (State.clocked^[m] s).tb.enabled = true ∧
      (State.clocked^[m] s).tb.value.toNat = s.tb.latch.toNat - m / (s.ta.latch.toNat + 1) ∧
      (State.clocked^[m] s).icr.event.getLsbD 1 = s.icr.event.getLsbD 1 := by
  induction m with
  | zero => exact ⟨he, by rw [Nat.zero_div, Nat.sub_zero, ← hLatchB]; rfl, rfl⟩
  | succ m ih =>
    obtain ⟨hEnabled, hValue, hEvent⟩ := ih (by omega)
    have hEffect := State.clocked_effect (State.clocked^[m] s)
    have hCounts := timerBCounts_iff_of_chained hEnabled ((s.iterate_clocked_tb_input m).trans hi)
    rw [State.iterate_clocked_expires_iff hs hMode hLatch m] at hCounts
    have hPeriods := Nat.div_lt_of_lt_mul (Nat.mul_comm _ _ ▸ hm)
    rw [Function.iterate_succ_apply']
    by_cases hDvd : s.ta.latch.toNat + 1 ∣ m + 1
    · rw [Nat.succ_div_of_dvd hDvd] at hPeriods ⊢
      have hNonzero : (State.clocked^[m] s).tb.value ≠ 0 := by
        intro hz
        rw [hz] at hValue
        change 0 = _ at hValue
        omega
      obtain ⟨hValue', hEnabled'⟩ := hEffect.timerB.counted (hCounts.2 hDvd) hNonzero
      exact ⟨hEnabled'.trans hEnabled, by omega,
        (hEffect.event1_of_not_expires fun hx => hNonzero hx.2).trans hEvent⟩
    · rw [Nat.succ_div_of_not_dvd hDvd]
      have hIdle := mt hCounts.1 hDvd
      rw [hEffect.timerB.eq_of_idle hIdle]
      exact ⟨hEnabled, hValue, (hEffect.event1_of_not_expires fun hx => hIdle hx.1).trans hEvent⟩

/-- Timer B first expires at the end of its last period. -/
theorem State.iterate_clocked_chained_expires_iff {m : Nat}
    (hm : m < (s.tb.latch.toNat + 1) * (s.ta.latch.toNat + 1)) :
    TimerBExpires (State.clocked^[m] s) ↔ m + 1 = (s.tb.latch.toNat + 1) * (s.ta.latch.toNat + 1) := by
  obtain ⟨hEnabled, hValue, _⟩ := State.iterate_clocked_chained hs hMode hLatch he hi hLatchB hm
  have hPeriods := Nat.div_lt_of_lt_mul (Nat.mul_comm _ _ ▸ hm)
  rw [TimerBExpires, timerBCounts_iff_of_chained hEnabled ((s.iterate_clocked_tb_input m).trans hi),
    State.iterate_clocked_expires_iff hs hMode hLatch m, ← BitVec.toNat_inj, hValue]
  change _ ∧ _ = 0 ↔ _
  constructor
  · rintro ⟨hDvd, hLast⟩
    have hCount : s.tb.latch.toNat + 1 = (m + 1) / (s.ta.latch.toNat + 1) := by
      rw [Nat.succ_div_of_dvd hDvd]
      omega
    rw [hCount, Nat.div_mul_cancel hDvd]
  · intro hEnd
    have hDvd : s.ta.latch.toNat + 1 ∣ m + 1 := hEnd ▸ Nat.dvd_mul_left _ _
    have hCount : (m + 1) / (s.ta.latch.toNat + 1) = s.tb.latch.toNat + 1 :=
      Nat.div_eq_of_eq_mul_left (Nat.succ_pos _) hEnd
    rw [Nat.succ_div_of_dvd hDvd] at hCount
    exact ⟨hDvd, by omega⟩

end

/-- Settles O37: timer B counts the ends of timer A's periods. -/
theorem chainedTimersMultiply : Obligations.ChainedTimersMultiply := by
  intro s m he hMode hi hLatch heB hiB hLatchB hm
  have hs := timerACounts_of_systemClock he hi
  obtain ⟨_, hValue, hEvent⟩ := State.iterate_clocked_chained hs hMode hLatch heB hiB hLatchB hm
  exact ⟨_, execTimes_clk m s, hValue, hEvent,
    State.iterate_clocked_chained_expires_iff hs hMode hLatch heB hiB hLatchB hm⟩

end Sys2Proof.Machine
end
